-- ==== Sys2Proof/Word.lean ====
section
/-! DEFINITION. The word types of the block and text as a sequence of ASCII codes (00_scope.md R8, R9). -/

namespace Sys2Proof

/-- One byte of a frame, or the ASCII code of one character (R9). -/
abbrev Byte := BitVec 8

/-- A line or a part of one: a finite sequence of ASCII codes (R9). -/
abbrev Text := List Byte

/-- A frame: its bytes in arrival order (R9, R33). -/
abbrev Frame := List Byte

/-- The ASCII codes of a list of characters (R9: a character means its 8-bit ASCII code). -/
def ascii (cs : List Char) : Text := cs.map fun c => BitVec.ofNat 8 c.toNat

end Sys2Proof
end

