-- ==== Sys2Proof/Config.lean ====
section
/-! DEFINITION. What is fixed for the block: the parameters of 00_scope.md R6, and the values that the model names where
the spec leaves one open (log entries 1 to 4). -/

namespace Sys2Proof.Config

/-- CHUNK: the largest frame the collector makes (R6). -/
def chunk : Nat := 256

/-- MIN_FRAME: a shorter frame is SHORT_FRAME (R6). -/
def minFrame : Nat := 5

/-- CRC_INIT (R6). -/
def crcInit : BitVec 16 := 0xFFFF

/-- CRC_POLY, the reflected form of 0x8005 (R6). -/
def crcPoly : BitVec 16 := 0xA001

/-- FQ_DEPTH: the entries of the frame queue (R6). -/
def fqDepth : Nat := 2

/-- BAUD_DIV_MIN (R6). -/
def baudDivMin : Nat := 4

/-- TS_MAX: the millisecond count of 9999-12-31T23:59:59.999 (R6). -/
def tsMax : Nat := 253402300799999

/-- LINE_MAX: the length of the longest output line (R6). -/
def lineMax : Nat := 827

/-- BITS_PER_CHAR_T * CHARS_T * MARGIN_T = 11 * 3.5 * 1.3 = 1001 / 20 bit times (R6, R16): the numerator. -/
def tmoNum : Nat := 1001

/-- The denominator of the silence threshold in bit times (R16). -/
def tmoDen : Nat := 20

/-- What a byte of frame storage that nothing has written reads as. DESIGN CHOICE, unsafe (log entry 2):
93_implementation_defined.md I7 and I8 allow any value. -/
def unwrittenByte : Byte := 0

/-- CLK_HZ is OPEN (R7, D2). DESIGN CHOICE (log entry 4): 48 MHz, the clock of R16's example. -/
def clkHz : Nat := 48000000

/-- The default baud rate (R7, R150). -/
def defaultBaud : Nat := 9600

/-- `cfg_baud_div` = round(CLK_HZ / 9600) = 5000 (R7). DESIGN CHOICE through `clkHz` (log entry 4). -/
def defaultBaudDiv : BitVec 24 := BitVec.ofNat 24 ((2 * clkHz + defaultBaud) / (2 * defaultBaud))

/-- `cfg_settle` is OPEN (R7, D20). DESIGN CHOICE (log entry 4). -/
def defaultSettle : BitVec 32 := 0

/-- The wall clock at `State.reset`. DESIGN CHOICE (log entry 1): an input, so any value is possible. -/
def defaultNowMs : BitVec 64 := 0

end Sys2Proof.Config
end

