-- ==== Sys2Proof/Syntax.lean ====
section
/-! DEFINITION. The operations of the block, one constructor per row of spec/opcode_table.json in the table's order, and the
step selectors that select them (30_encoding.md R51 to R56). -/

namespace Sys2Proof

/-- The frame statuses (10_state.md R22, 30_encoding.md R47): every code of the two bits is in use. -/
inductive Status where
  | ok
  | badCrc
  | shortFrame
  | exception
  deriving DecidableEq, Repr

/-- The two-bit code of a status (R47). -/
def Status.code : Status → BitVec 2
  | .ok => 0
  | .badCrc => 1
  | .shortFrame => 2
  | .exception => 3

/-- The operations. An operation of an engine has no operand (10_state.md R24): it reads and writes the registers its rule names.
The formatter's functions take the operands that 44_record_formatter.md gives them. -/
inductive Instr where
  -- UART receiver, selected by USEL
  | uStopped
  | uIdleWait
  | uStartDetect
  | uStartCount
  | uStartConfirm
  | uStartReject
  | uDataCount
  | uDataSample
  | uDataLastNopar
  | uDataLastPar
  | uParCount
  | uParSample
  | uStopCount
  | uStopSample
  | uStopSampleFerr
  | uWaitLow
  | uWaitRelease
  -- frame collector, selected by CSEL
  | cStopped
  | cSettleWait
  | cSettleDrain
  | cIdleWait
  | cIdleEmptyRead
  | cIdleFirstByte
  | cColWait
  | cColSilenceClose
  | cColAppend
  | cColFullClose
  -- CRC generator, selected by KSEL (CRC_INIT by none)
  | crcInit
  | crcByteIn
  | crcShift
  | crcShiftXor
  -- validator, selected by VSEL
  | vShortFrame
  | vBadCrc
  | vOk
  | vException
  -- emitter, selected by ESEL
  | eIdleWait
  | eDequeueShort
  | eDequeueCrc
  | eCrcStep
  | eCrcNextByte
  | eCrcDone
  | eClassify
  | eLineChar
  | eLineLast
  -- formatter functions, selected by nothing (R56)
  /-- HEX_BYTE of a byte (R110). -/
  | hexByte (b : Byte)
  /-- HEX_FRAME of a frame (R111). -/
  | hexFrame (f : Frame)
  /-- STATUS_TOKEN of a record's status (R112). -/
  | statusToken (status : Status)
  /-- DEC_U8 of a record's slave id (R113). -/
  | decU8 (slave : Byte)
  /-- CIVIL_FROM_DAYS of a signed day count (R114). -/
  | civilFromDays (z : Int)
  /-- TIMESTAMP of a millisecond count (R115). -/
  | timestamp (ts : BitVec 64)
  /-- LINE of a record and its frame (R116). -/
  | line (status : Status) (slave : Byte) (ts : BitVec 64) (f : Frame)
  -- evaluated in every cycle with rst = 0
  | fatalEntry
  | queueCommit
  deriving DecidableEq, Repr

/-- The five selector spaces (R51 to R55). -/
inductive Engine where
  | uart
  | collector
  | crc
  | validator
  | emitter
  deriving DecidableEq, Repr

/-- A step selector: which engine's, and its word (R51 to R55). -/
inductive Selector where
  /-- USEL = stop, u_state, hit, rxd_s, last, par_en (R51). -/
  | usel (w : BitVec 8)
  /-- CSEL = stop, c_state, rx_strobe, hit, full (R52). -/
  | csel (w : BitVec 6)
  /-- KSEL = first, t[0] (R53). -/
  | ksel (w : BitVec 2)
  /-- VSEL = long, crc_ok, exc (R54). -/
  | vsel (w : BitVec 3)
  /-- ESEL = e_state, qne, short, bit_last, crc_last, line_last (R55). -/
  | esel (w : BitVec 7)
  deriving DecidableEq, Repr

/-- The engine a selector belongs to. -/
def Selector.engine : Selector → Engine
  | .usel _ => .uart
  | .csel _ => .collector
  | .ksel _ => .crc
  | .vsel _ => .validator
  | .esel _ => .emitter

/-- A selector's word, zero-extended to 8 bits: every match and mask of the table fits in 8. -/
def Selector.word : Selector → BitVec 8
  | .usel w => w
  | .csel w => w.setWidth 8
  | .ksel w => w.setWidth 8
  | .vsel w => w.setWidth 8
  | .esel w => w.setWidth 8

end Sys2Proof
end

