-- ==== Sys2Proof/WellFormed.lean ====
section
/-! DEFINITION. The check on an operation's operands: a frame operand is 0..256 bytes long (43_frame_validator.md R108,
44_record_formatter.md R111), and the time of a TIMESTAMP or LINE is within TS_MAX (R115). -/

namespace Sys2Proof

/-- A frame the block can hold has at most CHUNK bytes (30_encoding.md R49; the validator and formatter are total from 0, D35). -/
abbrev Frame.fits (f : Frame) : Prop := f.length ≤ Config.chunk

/-- `0 <= ts <= TS_MAX` (R115). -/
abbrev tsInRange (ts : BitVec 64) : Prop := ts.toNat ≤ Config.tsMax

/-- The check. Operations without operands and those whose operand may take every value of its type are well formed. -/
def Instr.wf : Instr → Bool
  | .uStopped => true
  | .uIdleWait => true
  | .uStartDetect => true
  | .uStartCount => true
  | .uStartConfirm => true
  | .uStartReject => true
  | .uDataCount => true
  | .uDataSample => true
  | .uDataLastNopar => true
  | .uDataLastPar => true
  | .uParCount => true
  | .uParSample => true
  | .uStopCount => true
  | .uStopSample => true
  | .uStopSampleFerr => true
  | .uWaitLow => true
  | .uWaitRelease => true
  | .cStopped => true
  | .cSettleWait => true
  | .cSettleDrain => true
  | .cIdleWait => true
  | .cIdleEmptyRead => true
  | .cIdleFirstByte => true
  | .cColWait => true
  | .cColSilenceClose => true
  | .cColAppend => true
  | .cColFullClose => true
  | .crcInit => true
  | .crcByteIn => true
  | .crcShift => true
  | .crcShiftXor => true
  | .vShortFrame => true
  | .vBadCrc => true
  | .vOk => true
  | .vException => true
  | .eIdleWait => true
  | .eDequeueShort => true
  | .eDequeueCrc => true
  | .eCrcStep => true
  | .eCrcNextByte => true
  | .eCrcDone => true
  | .eClassify => true
  | .eLineChar => true
  | .eLineLast => true
  | .hexByte _ => true
  | .hexFrame f => decide f.fits
  | .statusToken _ => true
  | .decU8 _ => true
  | .civilFromDays _ => true
  | .timestamp ts => decide (tsInRange ts)
  | .line _ _ ts f => decide (tsInRange ts) && decide f.fits
  | .fatalEntry => true
  | .queueCommit => true

end Sys2Proof
end

