-- ==== Sys2Proof/Decode.lean ====
section
/-! DEFINITION. Decoding a step selector into the operations it selects, and the encoder (30_encoding.md R51 to R55).
An operation is selected when `(selector & mask) == match`. -/

namespace Sys2Proof

/-- One row of a selector table: the operation, its match and its mask. -/
structure Row where
  op : Instr
  pattern : BitVec 8
  mask : BitVec 8
  deriving DecidableEq, Repr

/-- `(selector & mask) == match`. -/
def rowMatches (w : BitVec 8) (r : Row) : Bool := w &&& r.mask == r.pattern

/-- R51. -/
def uselRows : List Row := [
  ⟨.uStopped, 0x80, 0x80⟩,
  ⟨.uIdleWait, 0x04, 0xF4⟩,
  ⟨.uStartDetect, 0x00, 0xF4⟩,
  ⟨.uStartCount, 0x10, 0xF8⟩,
  ⟨.uStartConfirm, 0x18, 0xFC⟩,
  ⟨.uStartReject, 0x1C, 0xFC⟩,
  ⟨.uDataCount, 0x20, 0xF8⟩,
  ⟨.uDataSample, 0x28, 0xFA⟩,
  ⟨.uDataLastNopar, 0x2A, 0xFB⟩,
  ⟨.uDataLastPar, 0x2B, 0xFB⟩,
  ⟨.uParCount, 0x30, 0xF8⟩,
  ⟨.uParSample, 0x38, 0xF8⟩,
  ⟨.uStopCount, 0x40, 0xF8⟩,
  ⟨.uStopSample, 0x4C, 0xFC⟩,
  ⟨.uStopSampleFerr, 0x48, 0xFC⟩,
  ⟨.uWaitLow, 0x50, 0xF4⟩,
  ⟨.uWaitRelease, 0x54, 0xF4⟩]

/-- R52. -/
def cselRows : List Row := [
  ⟨.cStopped, 0x20, 0x20⟩,
  ⟨.cSettleWait, 0x00, 0x3A⟩,
  ⟨.cSettleDrain, 0x02, 0x3A⟩,
  ⟨.cIdleWait, 0x08, 0x3E⟩,
  ⟨.cIdleEmptyRead, 0x0A, 0x3E⟩,
  ⟨.cIdleFirstByte, 0x0C, 0x3C⟩,
  ⟨.cColWait, 0x10, 0x3E⟩,
  ⟨.cColSilenceClose, 0x12, 0x3E⟩,
  ⟨.cColAppend, 0x14, 0x3D⟩,
  ⟨.cColFullClose, 0x15, 0x3D⟩]

/-- R53. The row of CRC_BYTE_IN comes first: a cycle applies it before its shift. -/
def kselRows : List Row := [
  ⟨.crcByteIn, 0x02, 0x02⟩,
  ⟨.crcShift, 0x00, 0x01⟩,
  ⟨.crcShiftXor, 0x01, 0x01⟩]

/-- R54. -/
def vselRows : List Row := [
  ⟨.vShortFrame, 0x00, 0x04⟩,
  ⟨.vBadCrc, 0x04, 0x06⟩,
  ⟨.vOk, 0x06, 0x07⟩,
  ⟨.vException, 0x07, 0x07⟩]

/-- R55. -/
def eselRows : List Row := [
  ⟨.eIdleWait, 0x00, 0x70⟩,
  ⟨.eDequeueShort, 0x18, 0x78⟩,
  ⟨.eDequeueCrc, 0x10, 0x78⟩,
  ⟨.eCrcStep, 0x20, 0x64⟩,
  ⟨.eCrcNextByte, 0x24, 0x66⟩,
  ⟨.eCrcDone, 0x26, 0x66⟩,
  ⟨.eClassify, 0x40, 0x60⟩,
  ⟨.eLineChar, 0x60, 0x61⟩,
  ⟨.eLineLast, 0x61, 0x61⟩]

/-- The selector table of an engine. -/
def selectorRows : Engine → List Row
  | .uart => uselRows
  | .collector => cselRows
  | .crc => kselRows
  | .validator => vselRows
  | .emitter => eselRows

/-- Why a selector has no meaning. -/
inductive DecodeError where
  /-- No row of the engine's table matches (R57). -/
  | noRow (engine : Engine) (selector : BitVec 8)
  deriving DecidableEq, Repr

/-- The operations a selector selects, in the order a cycle applies them: one for USEL, CSEL, VSEL and ESEL; for KSEL
CRC_BYTE_IN when `first` = 1 and then one shift (R53). Total: a word that matches no row is rejected by name. -/
def decode (sel : Selector) : Except DecodeError (List Instr) :=
  match (selectorRows sel.engine).filter (rowMatches sel.word) with
  | [] => .error (.noRow sel.engine sel.word)
  | rows => .ok (rows.map Row.op)

/-- A word with the row's fixed bits, and `free` in the bits the row leaves open. -/
def fillFree (pattern mask free : BitVec 8) : BitVec 8 := pattern ||| (free &&& ~~~mask)

/-- The selector word of an operation, with the bits its row leaves open taken from `free`: every word that selects the
operation, as `free` varies. `none` for the ten operations that no selector selects. Written from R51 to R55 by operation,
apart from the decoder's tables. -/
def encode (i : Instr) (free : BitVec 8) : Option Selector :=
  match i with
  | .uStopped => some (.usel (fillFree 0x80 0x80 free))
  | .uIdleWait => some (.usel (fillFree 0x04 0xF4 free))
  | .uStartDetect => some (.usel (fillFree 0x00 0xF4 free))
  | .uStartCount => some (.usel (fillFree 0x10 0xF8 free))
  | .uStartConfirm => some (.usel (fillFree 0x18 0xFC free))
  | .uStartReject => some (.usel (fillFree 0x1C 0xFC free))
  | .uDataCount => some (.usel (fillFree 0x20 0xF8 free))
  | .uDataSample => some (.usel (fillFree 0x28 0xFA free))
  | .uDataLastNopar => some (.usel (fillFree 0x2A 0xFB free))
  | .uDataLastPar => some (.usel (fillFree 0x2B 0xFB free))
  | .uParCount => some (.usel (fillFree 0x30 0xF8 free))
  | .uParSample => some (.usel (fillFree 0x38 0xF8 free))
  | .uStopCount => some (.usel (fillFree 0x40 0xF8 free))
  | .uStopSample => some (.usel (fillFree 0x4C 0xFC free))
  | .uStopSampleFerr => some (.usel (fillFree 0x48 0xFC free))
  | .uWaitLow => some (.usel (fillFree 0x50 0xF4 free))
  | .uWaitRelease => some (.usel (fillFree 0x54 0xF4 free))
  | .cStopped => some (.csel ((fillFree 0x20 0x20 free).setWidth 6))
  | .cSettleWait => some (.csel ((fillFree 0x00 0x3A free).setWidth 6))
  | .cSettleDrain => some (.csel ((fillFree 0x02 0x3A free).setWidth 6))
  | .cIdleWait => some (.csel ((fillFree 0x08 0x3E free).setWidth 6))
  | .cIdleEmptyRead => some (.csel ((fillFree 0x0A 0x3E free).setWidth 6))
  | .cIdleFirstByte => some (.csel ((fillFree 0x0C 0x3C free).setWidth 6))
  | .cColWait => some (.csel ((fillFree 0x10 0x3E free).setWidth 6))
  | .cColSilenceClose => some (.csel ((fillFree 0x12 0x3E free).setWidth 6))
  | .cColAppend => some (.csel ((fillFree 0x14 0x3D free).setWidth 6))
  | .cColFullClose => some (.csel ((fillFree 0x15 0x3D free).setWidth 6))
  | .crcInit => none
  | .crcByteIn => some (.ksel ((fillFree 0x02 0x02 free).setWidth 2))
  | .crcShift => some (.ksel ((fillFree 0x00 0x01 free).setWidth 2))
  | .crcShiftXor => some (.ksel ((fillFree 0x01 0x01 free).setWidth 2))
  | .vShortFrame => some (.vsel ((fillFree 0x00 0x04 free).setWidth 3))
  | .vBadCrc => some (.vsel ((fillFree 0x04 0x06 free).setWidth 3))
  | .vOk => some (.vsel ((fillFree 0x06 0x07 free).setWidth 3))
  | .vException => some (.vsel ((fillFree 0x07 0x07 free).setWidth 3))
  | .eIdleWait => some (.esel ((fillFree 0x00 0x70 free).setWidth 7))
  | .eDequeueShort => some (.esel ((fillFree 0x18 0x78 free).setWidth 7))
  | .eDequeueCrc => some (.esel ((fillFree 0x10 0x78 free).setWidth 7))
  | .eCrcStep => some (.esel ((fillFree 0x20 0x64 free).setWidth 7))
  | .eCrcNextByte => some (.esel ((fillFree 0x24 0x66 free).setWidth 7))
  | .eCrcDone => some (.esel ((fillFree 0x26 0x66 free).setWidth 7))
  | .eClassify => some (.esel ((fillFree 0x40 0x60 free).setWidth 7))
  | .eLineChar => some (.esel ((fillFree 0x60 0x61 free).setWidth 7))
  | .eLineLast => some (.esel ((fillFree 0x61 0x61 free).setWidth 7))
  | .hexByte _ => none
  | .hexFrame _ => none
  | .statusToken _ => none
  | .decU8 _ => none
  | .civilFromDays _ => none
  | .timestamp _ => none
  | .line _ _ _ _ => none
  | .fatalEntry => none
  | .queueCommit => none

/-- The first engine, in the table's order, of which some row has exactly this match. -/
def matchEngine (w : BitVec 8) : Option Engine :=
  [Engine.uart, .collector, .crc, .validator, .emitter].find? fun e => (selectorRows e).any fun r => r.pattern == w

/-- An engine's selector from the low bits of a word. -/
def engineSelector (e : Engine) (w : Nat) : Selector :=
  match e with
  | .uart => .usel (BitVec.ofNat 8 w)
  | .collector => .csel (BitVec.ofNat 6 w)
  | .crc => .ksel (BitVec.ofNat 2 w)
  | .validator => .vsel (BitVec.ofNat 3 w)
  | .emitter => .esel (BitVec.ofNat 7 w)

/-- The selector that `nbits` bits of value `w` are read as. The table's words carry no engine: the width names the engine
where it is exact (2 KSEL, 3 VSEL, 6 CSEL, 7 ESEL). A whole byte is read for the first engine that has a row with this very match;
where none has, for USEL, the one 8-bit selector, and, where USEL has no row (0x60 to 0x7F), for ESEL (DESIGN CHOICE, log entry 9). -/
def tableSelector (nbits w : Nat) : Option Selector :=
  if 2 ^ nbits ≤ w then none
  else match nbits with
    | 2 => some (engineSelector .crc w)
    | 3 => some (engineSelector .validator w)
    | 6 => some (engineSelector .collector w)
    | 7 => some (engineSelector .emitter w)
    | 8 =>
      some (engineSelector
        ((matchEngine (BitVec.ofNat 8 w)).getD (if 0x60 ≤ w ∧ w < 0x80 then .emitter else .uart)) w)
    | _ => none

/-- The operation the decoder reads from a table row's bits: the first of those that the selector selects. -/
def decodeTableWord (nbits w : Nat) : Option Instr :=
  match tableSelector nbits w with
  | none => none
  | some sel =>
    match decode sel with
    | .ok (i :: _) => some i
    | .ok [] => none
    | .error _ => none

end Sys2Proof
end

