-- ==== Sys2Proof/Machine/State.lean ====
section
/-! DEFINITION. The state of the block as plain data: every register of 10_state.md, the frame storage of 20_memory.md, the
named combinational signals of the latest cycle, the input pins, and the fault record of the run. -/

namespace Sys2Proof.Machine

/-- A byte array of frame storage (20_memory.md R28): (index, byte) pairs, strictly rising, none equal to what an unlisted
index reads as. -/
abbrev Memory := List Host.Cell

/-- The codes of `u_state` (30_encoding.md R46); 7 is reserved and never reached (R57). -/
inductive UState where
  | idle
  | start
  | data
  | parity
  | stop
  | waitIdle
  | halt
  | reserved
  deriving DecidableEq, Repr

/-- The codes of `c_state` (R46). -/
inductive CState where
  | settle
  | idle
  | collect
  | halt
  deriving DecidableEq, Repr

/-- The codes of `e_state` (R46). -/
inductive EState where
  | idle
  | crc
  | classify
  | line
  deriving DecidableEq, Repr

/-- The six `cfg_*` inputs (R12). -/
structure CfgPins where
  baudDiv : BitVec 24
  parity : BitVec 3
  stop : BitVec 2
  tmoOvrEn : Bool
  tmoOvr : BitVec 32
  settle : BitVec 32
  deriving DecidableEq, Repr

/-- The inputs of one cycle (R12); `clk` is the step itself. -/
structure Inputs where
  rst : Bool
  rxd : Bool
  srcErr : Bool
  nowMs : BitVec 64
  cfg : CfgPins
  deriving DecidableEq, Repr

/-- The configuration registers (R14): the six latched ones and TMO. -/
structure Cfg where
  /-- CFG_BAUD_DIV -/
  baudDiv : BitVec 24
  /-- CFG_PARITY -/
  parity : BitVec 3
  /-- CFG_STOP -/
  stop : BitVec 2
  /-- CFG_TMO_OVR_EN -/
  tmoOvrEn : Bool
  /-- CFG_TMO_OVR -/
  tmoOvr : BitVec 32
  /-- CFG_SETTLE -/
  settle : BitVec 32
  /-- TMO (R16) -/
  tmo : BitVec 32
  deriving DecidableEq, Repr

/-- The UART receiver's registers (R18). -/
structure Uart where
  sync1 : Bool
  sync2 : Bool
  /-- `u_state` -/
  state : UState
  /-- `u_cnt` -/
  cnt : BitVec 24
  /-- `u_bit` -/
  bit : BitVec 3
  /-- `u_shift` -/
  shift : BitVec 8
  /-- `u_par` -/
  par : Bool
  deriving DecidableEq, Repr

/-- The frame collector's registers (R19). -/
structure Collector where
  /-- `c_state` -/
  state : CState
  /-- `c_timer` -/
  timer : BitVec 32
  /-- `c_len` -/
  len : BitVec 9
  /-- `c_buf[0..255]` -/
  buf : Memory
  deriving DecidableEq, Repr

/-- One entry of the frame queue (R20). -/
structure QEntry where
  len : BitVec 9
  ts : BitVec 64
  bytes : Memory
  deriving DecidableEq, Repr

/-- The frame queue (R20). -/
structure Queue where
  /-- `q[0]` -/
  e0 : QEntry
  /-- `q[1]` -/
  e1 : QEntry
  /-- `q_head` -/
  head : BitVec 1
  /-- `q_count` -/
  count : BitVec 2
  deriving DecidableEq, Repr

/-- The validator and emitter registers (R21). -/
structure Emitter where
  /-- `e_state` -/
  state : EState
  /-- `e_crc` -/
  crc : BitVec 16
  /-- `e_idx` -/
  idx : BitVec 8
  /-- `e_bit` -/
  bit : BitVec 3
  /-- `e_lidx` -/
  lidx : BitVec 10
  /-- `e_line` -/
  line : Text
  deriving DecidableEq, Repr

/-- The record registers (R22). -/
structure Record where
  status : Status
  slave : BitVec 8
  func : BitVec 8
  exc : BitVec 8
  len : BitVec 9
  ts : BitVec 64
  deriving DecidableEq, Repr

/-- The sticky status flags (R23). -/
structure Flags where
  perr : Bool
  ferr : Bool
  overrun : Bool
  fatal : Bool
  deriving DecidableEq, Repr

/-- The receiver's combinational outputs to the collector (40_uart_rx.md R61). -/
structure Rx where
  strobe : Bool
  byte : BitVec 8
  perr : Bool
  ferr : Bool
  deriving DecidableEq, Repr

/-- The push request of a CLOSE (41_frame_collector.md R81); its n is the length of `bytes`. -/
structure Push where
  bytes : Frame
  ts : BitVec 64
  deriving DecidableEq, Repr

/-- The block's outputs (10_state.md R13). -/
structure Outputs where
  lineValid : Bool
  lineChar : BitVec 8
  lineLast : Bool
  recValid : Bool
  recStatus : BitVec 2
  recSlave : BitVec 8
  recFunc : BitVec 8
  recExc : BitVec 8
  recLen : BitVec 9
  recTs : BitVec 64
  stsPerr : Bool
  stsFerr : Bool
  stsOverrun : Bool
  stsFatal : Bool
  halted : Bool
  deriving DecidableEq, Repr

/-- The results of the formatter's functions in the latest cycle (44_record_formatter.md). -/
structure Fmt where
  hexByte : Text
  hexFrame : Text
  token : Text
  dec : Text
  civil : Int × Int × Int
  stamp : Text
  line : Text
  deriving DecidableEq, Repr

/-- The named combinational signals of the latest cycle (00_scope.md R10), kept as data (log entry 5). -/
structure Signals where
  /-- `fatal_req` (60_exceptions.md R134) -/
  fatalReq : Bool
  /-- `stop` (R134) -/
  stop : Bool
  /-- `rxd_s` (40_uart_rx.md R60) -/
  rxdS : Bool
  /-- `rx_strobe`, `rx_byte`, `rx_perr`, `rx_ferr` (R61) -/
  rx : Rx
  /-- `pop` (45_record_pipeline.md R119) -/
  pop : Bool
  /-- `push` (41_frame_collector.md R81) -/
  push : Option Push
  /-- `t`, the value that enters the CRC shift (42_crc16.md R96, R99) -/
  t : BitVec 16
  fmt : Fmt
  /-- the outputs driven in the cycle (45_record_pipeline.md R118) -/
  out : Outputs
  deriving DecidableEq, Repr

/-- The faults of the block, exactly those of 60_exceptions.md R137. They are sticky entries of the run's fault record, and the machine goes
on stepping (R136, R137; 93_implementation_defined.md: none is a stop), so no operation and no step answers one as its outcome. -/
inductive Fault where
  /-- `Overrun(n, ts)`: a push with the queue full after the pop (45_record_pipeline.md R120). Recorded by QUEUE_COMMIT. Safe: the spec's
  own fault. -/
  | overrun (n : BitVec 9) (ts : BitVec 64)
  /-- `Unreachable(engine, selector)`: no row of an engine's selector table matches (30_encoding.md R57). Recorded by the receiver's and
  the collector's part of a cycle. Safe: the spec's own fault; what the engine does then is log entry 18. -/
  | unreachable (engine : Engine) (selector : BitVec 8)
  deriving DecidableEq, Repr

/-- The state of the block. `pins` and `script` are the inputs (log entry 1), `resetSeen` and `faults` the model's own records
(log entries 6 and 7); everything else is the spec's. -/
structure State where
  cfg : Cfg
  uart : Uart
  col : Collector
  q : Queue
  em : Emitter
  record : Record
  flags : Flags
  sig : Signals
  pins : Inputs
  script : List Inputs
  resetSeen : Bool
  faults : List Fault
  deriving DecidableEq, Repr

/-- Why a step or an instruction has no meaning. These are the machine's only stops. -/
inductive Refusal where
  /-- An instruction without a meaning in this model. Raised by `exec` alone. Safe. -/
  | notModelled (mnemonic : String)
  /-- The latched configuration is illegal when `rst` is 0 (10_state.md R17). Raised by a clock cycle. Safe: the spec refuses the run. -/
  | illegalConfiguration
  /-- A time above TS_MAX is formatted (44_record_formatter.md R115). Raised by TIMESTAMP, LINE and E_CLASSIFY. Safe: the spec refuses
  the run. -/
  | timestampOutOfRange (ts : BitVec 64)
  /-- A cycle with `rst` = 0 before any reset cycle (70_reset_and_hazards.md R148). Raised by a clock cycle. Safe: the spec refuses the
  run. -/
  | noReset
  deriving DecidableEq, Repr

/-- One step's or one operation's result. -/
abbrev Result := Host.Outcome State Fault Refusal

/-! Named updates of one part of the state. -/

def State.setCfg (c : Cfg) (s : State) : State := { s with cfg := c }
def State.setUart (u : Uart) (s : State) : State := { s with uart := u }
def State.setCol (c : Collector) (s : State) : State := { s with col := c }
def State.setQ (q : Queue) (s : State) : State := { s with q := q }
def State.setEm (e : Emitter) (s : State) : State := { s with em := e }
def State.setRecord (r : Record) (s : State) : State := { s with record := r }
def State.setFlags (f : Flags) (s : State) : State := { s with flags := f }
def State.setSig (g : Signals) (s : State) : State := { s with sig := g }

/-- The silence threshold TMO from the configuration inputs (10_state.md R16), exact, then 32 bits. -/
def silenceThreshold (p : CfgPins) : BitVec 32 :=
  if p.tmoOvrEn then p.tmoOvr
  else BitVec.ofNat 32 ((Config.tmoNum * p.baudDiv.toNat + Config.tmoDen - 1) / Config.tmoDen)

/-- The configuration registers after a reset cycle with these inputs (R15). -/
def Cfg.latch (p : CfgPins) : Cfg where
  baudDiv := p.baudDiv
  parity := p.parity
  stop := p.stop
  tmoOvrEn := p.tmoOvrEn
  tmoOvr := p.tmoOvr
  settle := p.settle
  tmo := silenceThreshold p

/-- The reset values of 70_reset_and_hazards.md R146. -/
def Uart.reset : Uart where
  sync1 := true
  sync2 := true
  state := .idle
  cnt := 0
  bit := 0
  shift := 0
  par := false

/-- R146; `c_buf` is unspecified there (log entry 2). -/
def Collector.reset : Collector where
  state := .settle
  timer := 0
  len := 0
  buf := []

/-- Unspecified at reset (R146; log entries 2 and 3). -/
def QEntry.reset : QEntry where
  len := 0
  ts := 0
  bytes := []

/-- R146. -/
def Queue.reset : Queue where
  e0 := .reset
  e1 := .reset
  head := 0
  count := 0

/-- R146. -/
def Emitter.reset : Emitter where
  state := .idle
  crc := 0
  idx := 0
  bit := 0
  lidx := 0
  line := []

/-- R146: 0 each, so the status reads OK. -/
def Record.reset : Record where
  status := .ok
  slave := 0
  func := 0
  exc := 0
  len := 0
  ts := 0

/-- R146. -/
def Flags.reset : Flags where
  perr := false
  ferr := false
  overrun := false
  fatal := false

/-- The receiver drives nothing (R61). -/
def Rx.quiet : Rx where
  strobe := false
  byte := 0
  perr := false
  ferr := false

/-- Every output 0 (R118, R146: in a reset cycle). -/
def Outputs.zero : Outputs where
  lineValid := false
  lineChar := 0
  lineLast := false
  recValid := false
  recStatus := 0
  recSlave := 0
  recFunc := 0
  recExc := 0
  recLen := 0
  recTs := 0
  stsPerr := false
  stsFerr := false
  stsOverrun := false
  stsFatal := false
  halted := false

/-- No formatter function evaluated. -/
def Fmt.empty : Fmt where
  hexByte := []
  hexFrame := []
  token := []
  dec := []
  civil := (0, 0, 0)
  stamp := []
  line := []

/-- No signal driven. -/
def Signals.quiet : Signals where
  fatalReq := false
  stop := false
  rxdS := false
  rx := .quiet
  pop := false
  push := none
  t := 0
  fmt := .empty
  out := .zero

/-- The state a reset cycle with these `cfg_*` inputs leaves (70_reset_and_hazards.md R146), the inputs of the next cycles and the run's
fault record beside it. -/
def State.afterReset (p : CfgPins) (pins : Inputs) (script : List Inputs) (faults : List Fault) : State where
  cfg := .latch p
  uart := .reset
  col := .reset
  q := .reset
  em := .reset
  record := .reset
  flags := .reset
  sig := .quiet
  pins := pins
  script := script
  resetSeen := true
  faults := faults

/-- The source's default configuration (00_scope.md R7, 70_reset_and_hazards.md R150), with the values of log entry 4 where it is OPEN. -/
def CfgPins.default : CfgPins where
  baudDiv := Config.defaultBaudDiv
  parity := 0
  stop := 0
  tmoOvrEn := false
  tmoOvr := 0
  settle := Config.defaultSettle

/-- The line idle, nothing asserted (30_encoding.md R58). DESIGN CHOICE (log entry 1). -/
def Inputs.default : Inputs where
  rst := false
  rxd := true
  srcErr := false
  nowMs := Config.defaultNowMs
  cfg := .default

/-- The machine right after reset. -/
def State.reset : State := .afterReset .default .default [] []

end Sys2Proof.Machine
end

