-- ==== Sys2Proof/Machine/Ops.lean ====
section
/-! DEFINITION. The named operations over frame storage and registers: reading and writing a byte array (20_memory.md R28 to R31),
the ends of a receiver and a collector operation, the reset cycle (70_reset_and_hazards.md R146), the fatal stop
(60_exceptions.md R134), the queue commit (45_record_pipeline.md R120), and passing from one cycle's inputs to the next. -/

namespace Sys2Proof.Machine

/-- Run `k` on the next state; a fault or refusal stops. -/
def andThen (o : Result) (k : State → Result) : Result :=
  match o with
  | .next s => k s
  | .fault r => .fault r
  | .refused r => .refused r

/-! ## Byte arrays -/

/-- The canonical form from index `lo` on: indices strictly rising and below 256, no byte equal to the unwritten byte. -/
def memWfFrom : Nat → Memory → Bool
  | _, [] => true
  | lo, (a, b) :: m => decide (lo ≤ a) && decide (a < Config.chunk) && decide (b ≠ Config.unwrittenByte) && memWfFrom (a + 1) m

/-- The canonical form of a byte array. -/
def Memory.wf (m : Memory) : Bool := memWfFrom 0 m

/-- One byte of an array. -/
def memRead : Memory → Nat → Byte
  | [], _ => Config.unwrittenByte
  | (a, b) :: m, i => if i = a then b else memRead m i

/-- `buf[i] <- b`, in canonical form. -/
def memWrite : Memory → Nat → Byte → Memory
  | [], i, b => if b = Config.unwrittenByte then [] else [(i, b)]
  | (a, c) :: m, i, b =>
    if i < a then (if b = Config.unwrittenByte then (a, c) :: m else (i, b) :: (a, c) :: m)
    else if i = a then (if b = Config.unwrittenByte then m else (i, b) :: m)
    else (a, c) :: memWrite m i b

/-- The byte of an array that a number indexes: the index is 8 bits wide (R28), so of a number above 255, which no run computes, it is the
low 8 bits (DEDUCED, log entry 8). -/
def byteIndex (i : Nat) : Nat := i % Config.chunk

/-- `buf[i : i + n] <- bytes`, one byte after another. -/
def memWriteAll : Memory → Nat → Frame → Memory
  | m, _, [] => m
  | m, i, b :: bs => memWriteAll (memWrite m (byteIndex i) b) (i + 1) bs

/-- `buf[0 : n]`. -/
def memBytes (m : Memory) (n : Nat) : Frame := (List.range n).map fun i => memRead m (byteIndex i)

/-- `FrameWrite(i, b)`, that is `c_buf[i] <- b` (R29). -/
def frameWrite (i : Nat) (b : Byte) (c : Collector) : Collector := { c with buf := memWrite c.buf (byteIndex i) b }

/-! ## The queue's entries -/

/-- `q[k]`. -/
def Queue.entry (q : Queue) (k : BitVec 1) : QEntry := if k = 0 then q.e0 else q.e1

/-- `q[k] <- e`. -/
def Queue.setEntry (q : Queue) (k : BitVec 1) (e : QEntry) : Queue :=
  if k = 0 then { q with e0 := e } else { q with e1 := e }

/-- `q[q_head]`. -/
def Queue.headEntry (q : Queue) : QEntry := q.entry q.head

/-- `FrameRead(q_head, i)` (R31): only the head entry is read. -/
def headRead (s : State) (i : Nat) : Byte := memRead s.q.headEntry.bytes (byteIndex i)

/-! ## The end of an engine's operation -/

/-- A receiver operation's end: its registers, and its signals of this cycle (40_uart_rx.md R61). -/
def uartEnd (u : Uart) (rx : Rx) (s : State) : State := { s with uart := u, sig := { s.sig with rx := rx } }

/-- A collector operation's end: its registers, and its push request of this cycle (41_frame_collector.md R81). -/
def colEnd (c : Collector) (push : Option Push) (s : State) : State :=
  { s with col := c, sig := { s.sig with push := push } }

/-- The `t` signal of the CRC generator (42_crc16.md R96). -/
def driveT (t : BitVec 16) (s : State) : State := s.setSig { s.sig with t := t }

/-- A formatter function's result. -/
def driveFmt (f : Fmt) (s : State) : State := s.setSig { s.sig with fmt := f }

/-- The push request CLOSE(bytes, n) with this cycle's `now_ms` (R81). -/
def closeRequest (bytes : Frame) (s : State) : Option Push := some ⟨bytes, s.pins.nowMs⟩

/-! ## Entering the fatal stop, and leaving it by reset -/

/-- FATAL_ENTRY (60_exceptions.md R134): the block's only trap-like event. It drives `fatal_req` and `stop`, which make the receiver and
the collector run their STOPPED operations in this very cycle, and sets `sts_fatal`. -/
def fatalEntry (s : State) : State :=
  let fatalReq := s.pins.srcErr && !s.flags.fatal
  { s with
    sig := { s.sig with fatalReq := fatalReq, stop := fatalReq || s.flags.fatal }
    flags := { s.flags with fatal := s.flags.fatal || fatalReq } }

/-- The inputs of the next cycle: the script's next, and after its end those of 30_encoding.md R58 (`rst` = 0, `src_err` = 0, `rxd` = 1;
`now_ms` and the `cfg_*` inputs hold). DESIGN CHOICE (log entry 1). -/
def nextPins (s : State) : Inputs :=
  match s.script with
  | i :: _ => i
  | [] => { s.pins with rst := false, rxd := true, srcErr := false }

/-- The end of a cycle: the pins take the next cycle's values. -/
def endCycle (s : State) : State := { s with pins := nextPins s, script := s.script.tail }

/-- A cycle with `rst` = 1 (70_reset_and_hazards.md R146): everything takes its reset value, the configuration is latched from the
`cfg_*` inputs, and the outputs are 0. It is the only way out of the fatal stop (R135). The run's fault record stays (log entry 7). -/
def resetCycle (s : State) : State := .afterReset s.pins.cfg s.pins s.script s.faults

/-- A fault of R137 is raised: the run's record takes it, and the machine goes on (log entry 7). -/
def raiseFault (r : Fault) (s : State) : State := { s with faults := s.faults ++ [r] }

/-! ## The queue commit -/

/-- The pop of R120; the entry is not cleared. `q_count` wraps at 0, which no run reaches (DESIGN CHOICE, log entry 12). -/
def popQueue (pop : Bool) (q : Queue) : Queue :=
  if pop then { q with head := q.head + 1, count := q.count - 1 } else q

/-- `(h1 + c1) mod 2`: the tail index after the pop. -/
def tailIndex (q : Queue) : BitVec 1 := q.head + q.count.setWidth 1

/-- The entry a push leaves: `bytes[0 : n]`, the length and the time are written, the bytes above keep their values (R30, R120). -/
def pushEntry (p : Push) (e : QEntry) : QEntry where
  len := BitVec.ofNat 9 p.bytes.length
  ts := p.ts
  bytes := memWriteAll e.bytes 0 p.bytes

/-- QUEUE_COMMIT (R120): the pop, then the push, which is dropped with a sticky flag and a fault record when the queue is full (R136). -/
def queueCommit (s : State) : Result :=
  let q := popQueue s.sig.pop s.q
  match s.sig.push with
  | none => .next (s.setQ q)
  | some p =>
    if q.count.toNat < Config.fqDepth then
      let k := tailIndex q
      .next (s.setQ { q.setEntry k (pushEntry p (q.entry k)) with count := q.count + 1 })
    else
      .next (raiseFault (.overrun (BitVec.ofNat 9 p.bytes.length) p.ts)
        { s with q := q, flags := { s.flags with overrun := true } })

end Sys2Proof.Machine
end

