-- ==== Sys2Proof/Machine/Operands.lean ====
section
/-! DEFINITION. What the operations read: the sampled line, the head frame and its fields, and the step selectors computed from the
start-of-cycle state (30_encoding.md R48, R51 to R55). -/

namespace Sys2Proof.Machine

/-! ## Configuration codes -/

def parityNone : BitVec 3 := 0
def parityEven : BitVec 3 := 1
def parityOdd : BitVec 3 := 2
def parityMark : BitVec 3 := 3
def paritySpace : BitVec 3 := 4

/-- `par_en` (R51). -/
def parEn (c : Cfg) : Bool := c.parity != parityNone

/-- A configuration that is not refused when `rst` falls (10_state.md R17). -/
def cfgLegal (c : Cfg) : Bool :=
  decide (Config.baudDivMin ≤ c.baudDiv.toNat) && decide (c.parity.toNat ≤ 4) && decide (c.stop.toNat ≤ 2)
    && !(c.tmoOvrEn && c.tmoOvr == 0)

/-- `H = bd / 2`, rounded down (40_uart_rx.md). -/
def halfBit (c : Cfg) : BitVec 24 := c.baudDiv >>> 1

/-! ## State codes (R46) -/

def UState.code : UState → BitVec 3
  | .idle => 0
  | .start => 1
  | .data => 2
  | .parity => 3
  | .stop => 4
  | .waitIdle => 5
  | .halt => 6
  | .reserved => 7

def CState.code : CState → BitVec 2
  | .settle => 0
  | .idle => 1
  | .collect => 2
  | .halt => 3

def EState.code : EState → BitVec 2
  | .idle => 0
  | .crc => 1
  | .classify => 2
  | .line => 3

/-! ## The receiver's operands -/

/-- The input synchronizer (40_uart_rx.md R60): `rxd_s` is the second stage at the start of the cycle; then both stages shift, in every
cycle with `rst` = 0. -/
def sampleLine (s : State) : State :=
  { s with
    sig := { s.sig with rxdS := s.uart.sync2 }
    uart := { s.uart with sync2 := s.uart.sync1, sync1 := s.pins.rxd } }

/-- `{rxd_s, u_shift[7:1]}` (R70 to R72): bits enter at bit 7 and move right. -/
def shiftIn (bit : Bool) (shift : BitVec 8) : BitVec 8 := BitVec.ofBool bit ++ shift.extractLsb' 1 7

/-- `hit` of USEL (R51). -/
def uHit (s : State) : Bool :=
  match s.uart.state with
  | .start => s.uart.cnt == halfBit s.cfg
  | .data | .parity | .stop => s.uart.cnt == s.cfg.baudDiv
  | .idle | .waitIdle | .halt | .reserved => false

/-- USEL[7:0] (R51). -/
def usel (s : State) : BitVec 8 :=
  BitVec.ofBool s.sig.stop ++ s.uart.state.code ++ BitVec.ofBool (uHit s) ++ BitVec.ofBool s.sig.rxdS
    ++ BitVec.ofBool (s.uart.bit == 7) ++ BitVec.ofBool (parEn s.cfg)

/-! ## The collector's operands -/

/-- `hit` of CSEL (R52), on exact naturals. -/
def cHit (s : State) : Bool :=
  match s.col.state with
  | .settle => s.col.timer == s.cfg.settle
  | .idle | .collect | .halt => s.col.timer.toNat + 1 == s.cfg.tmo.toNat

/-- CSEL[5:0] (R52). -/
def csel (s : State) : BitVec 6 :=
  BitVec.ofBool s.sig.stop ++ s.col.state.code ++ BitVec.ofBool s.sig.rx.strobe ++ BitVec.ofBool (cHit s)
    ++ BitVec.ofBool (s.col.len == 255)

/-- `c_buf[0 : c_len]`. -/
def collected (c : Collector) : Frame := memBytes c.buf c.len.toNat

/-! ## The head frame's operands -/

/-- `q[q_head].len` as a number. -/
def headLen (s : State) : Nat := s.q.headEntry.len.toNat

/-- `f = q[q_head].bytes[0 : len]` (45_record_pipeline.md R127). -/
def headFrame (s : State) : Frame := memBytes s.q.headEntry.bytes (headLen s)

/-- The received CRC of a frame, little-endian (20_memory.md R34); n is the frame's length, at least 2. -/
def receivedCrc (lo hi : Byte) : BitVec 16 := lo.setWidth 16 ||| (hi.setWidth 16 <<< 8)

/-- The received CRC of the head frame, from two byte reads (20_memory.md R34, R35). -/
def headReceivedCrc (s : State) : BitVec 16 :=
  receivedCrc (headRead s (headLen s - 2)) (headRead s (headLen s - 1))

/-- `t`, the value that enters the CRC shift in this cycle (42_crc16.md R99): at the first bit step the payload byte is XORed in. -/
def crcFeed (s : State) : BitVec 16 :=
  if s.em.bit = 0 then s.em.crc ^^^ (headRead s s.em.idx.toNat).setWidth 16 else s.em.crc

/-- KSEL[1:0] (R53). -/
def ksel (s : State) : BitVec 2 := BitVec.ofBool (s.em.bit == 0) ++ BitVec.ofBool ((crcFeed s).getLsbD 0)

/-- VSEL[2:0] (R54) of the head frame, its computed CRC taken from `e_crc`. `crc_ok` and `exc` are not computed for a short frame:
they are don't-care there, and 0 (DESIGN CHOICE, log entry 13). -/
def vsel (s : State) : BitVec 3 :=
  let long := decide (Config.minFrame ≤ headLen s)
  BitVec.ofBool long ++ BitVec.ofBool (long && headReceivedCrc s == s.em.crc)
    ++ BitVec.ofBool (long && decide (0x80 < (headRead s 1).toNat))

/-! ## The emitter's operands -/

/-- `line_last = (e_lidx == len(e_line) - 1)` (R55), exact: no index is the last of an empty line. -/
def lineLast (e : Emitter) : Bool := e.lidx.toNat + 1 == e.line.length

/-- `crc_last = (e_idx == q[q_head].len - 3)` (R55), exact. -/
def crcLast (s : State) : Bool := s.em.idx.toNat + 3 == headLen s

/-- ESEL[6:0] (R55). -/
def esel (s : State) : BitVec 7 :=
  s.em.state.code ++ BitVec.ofBool (s.q.count != 0) ++ BitVec.ofBool (decide (headLen s < Config.minFrame))
    ++ BitVec.ofBool (s.em.bit == 7) ++ BitVec.ofBool (crcLast s) ++ BitVec.ofBool (lineLast s.em)

/-- `e_line[e_lidx]`; 0 where the index is past the line, which no run reaches (DESIGN CHOICE, log entry 12). -/
def lineChar (e : Emitter) : Byte := e.line.getD e.lidx.toNat 0

/-- `pop = line_last` of the output port (45_record_pipeline.md R119). -/
def popRequest (s : State) : Bool := s.em.state == .line && lineLast s.em

end Sys2Proof.Machine
end

