-- ==== Sys2Proof/Machine/Flags.lean ====
section
/-! DEFINITION. The parity check and the sticky flags (30_encoding.md R44, 40_uart_rx.md R76), and the outputs
(45_record_pipeline.md R118). -/

namespace Sys2Proof.Machine

/-- `x`, the XOR of a byte's bits (R76). -/
def xorBits (b : Byte) : Bool :=
  b.getLsbD 0 ^^ b.getLsbD 1 ^^ b.getLsbD 2 ^^ b.getLsbD 3 ^^ b.getLsbD 4 ^^ b.getLsbD 5 ^^ b.getLsbD 6 ^^ b.getLsbD 7

/-- `rx_perr` (R76): the parity check of R44 fails. -/
def parityError (parity : BitVec 3) (b : Byte) (p : Bool) : Bool :=
  (parity == parityEven && (xorBits b ^^ p) != false)
    || (parity == parityOdd && (xorBits b ^^ p) != true)
    || (parity == parityMark && p != true)
    || (parity == paritySpace && p != false)

/-- The receiver's signals in a cycle that delivers a byte (R76). -/
def deliveredRx (s : State) : Rx where
  strobe := true
  byte := s.uart.shift
  perr := parityError s.cfg.parity s.uart.shift s.uart.par
  ferr := !s.sig.rxdS

/-- `sts_perr <- sts_perr | rx_perr; sts_ferr <- sts_ferr | rx_ferr` (R76). -/
def stickRx (rx : Rx) (f : Flags) : Flags := { f with perr := f.perr || rx.perr, ferr := f.ferr || rx.ferr }

/-- `halted` (R118, 60_exceptions.md R134). -/
def halted (s : State) : Bool := s.flags.fatal && s.q.count == 0 && s.em.state == .idle

/-- The outputs of a cycle, functions of its start-of-cycle state alone; all 0 in a cycle with `rst` = 1 (R118). -/
def outputs (s : State) : Outputs :=
  if s.pins.rst then .zero
  else
    { lineValid := s.em.state == .line
      lineChar := if s.em.state = .line then lineChar s.em else 0
      lineLast := s.em.state == .line && lineLast s.em
      recValid := s.em.state == .line && s.em.lidx == 0
      recStatus := s.record.status.code
      recSlave := s.record.slave
      recFunc := s.record.func
      recExc := s.record.exc
      recLen := s.record.len
      recTs := s.record.ts
      stsPerr := s.flags.perr
      stsFerr := s.flags.ferr
      stsOverrun := s.flags.overrun
      stsFatal := s.flags.fatal
      halted := halted s }

/-- The line port's part of the output of an E_LINE cycle (R118, R128, R129): the cycle's first part has driven the same values. -/
def driveLine (s : State) : State :=
  s.setSig { s.sig with
    out := { s.sig.out with
      lineValid := true
      lineChar := lineChar s.em
      lineLast := lineLast s.em
      recValid := s.em.lidx == 0 } }

end Sys2Proof.Machine
end

