-- ==== Sys2Proof/Machine/Collector.lean ====
section
/-! DEFINITION. The frame collector's operations (41_frame_collector.md R82 to R91). Only the two closes raise a push request (R81). -/

namespace Sys2Proof.Machine

/-- `c_timer <- c_timer + 1`. -/
def colCount (s : State) : Result := .next (colEnd { s.col with timer := s.col.timer + 1 } none s)

/-- The registers after a close, or of a new read: `c_state <- C_IDLE; c_timer <- 0; c_len <- 0`. -/
def colIdle (c : Collector) : Collector := { c with state := .idle, timer := 0, len := 0 }

/-- C_STOPPED (R82): the collector's part of the fatal stop; a partly collected frame is discarded. -/
def execCStopped (s : State) : Result := .next (colEnd { s.col with state := .halt, len := 0, timer := 0 } none s)

/-- C_SETTLE_WAIT (R83): a byte strobed in this cycle is discarded. -/
def execCSettleWait (s : State) : Result := colCount s

/-- C_SETTLE_DRAIN (R84). -/
def execCSettleDrain (s : State) : Result := .next (colEnd { s.col with state := .idle, timer := 0 } none s)

/-- C_IDLE_WAIT (R85). -/
def execCIdleWait (s : State) : Result := colCount s

/-- C_IDLE_EMPTY_READ (R86): the start timeout expires, with no CLOSE. -/
def execCIdleEmptyRead (s : State) : Result := .next (colEnd { s.col with timer := 0 } none s)

/-- C_IDLE_FIRST_BYTE (R87). -/
def execCIdleFirstByte (s : State) : Result :=
  .next (colEnd { frameWrite 0 s.sig.rx.byte s.col with len := 1, timer := 0, state := .collect } none s)

/-- C_COL_WAIT (R88). -/
def execCColWait (s : State) : Result := colCount s

/-- C_COL_SILENCE_CLOSE (R89): `CLOSE(c_buf[0 : c_len], c_len)`. -/
def execCColSilenceClose (s : State) : Result :=
  .next (colEnd (colIdle s.col) (closeRequest (collected s.col) s) s)

/-- C_COL_APPEND (R90): `FrameWrite(c_len, rx_byte)`. -/
def execCColAppend (s : State) : Result :=
  .next (colEnd { frameWrite s.col.len.toNat s.sig.rx.byte s.col with len := s.col.len + 1, timer := 0 } none s)

/-- C_COL_FULL_CLOSE (R91): `FrameWrite(255, rx_byte); CLOSE(c_buf[0 : 255] ++ [rx_byte], 256)`. -/
def execCColFullClose (s : State) : Result :=
  .next (colEnd (colIdle (frameWrite 255 s.sig.rx.byte s.col)) (closeRequest (memBytes s.col.buf 255 ++ [s.sig.rx.byte]) s) s)

end Sys2Proof.Machine
end

