-- ==== Sys2Proof/Machine/Control.lean ====
section
/-! DEFINITION. The two operations that every cycle with `rst` = 0 evaluates: FATAL_ENTRY (60_exceptions.md R134) and QUEUE_COMMIT
(45_record_pipeline.md R120). -/

namespace Sys2Proof.Machine

/-- FATAL_ENTRY (R134). -/
def execFatalEntry (s : State) : Result := .next (fatalEntry s)

/-- QUEUE_COMMIT (R120). -/
def execQueueCommit (s : State) : Result := queueCommit s

end Sys2Proof.Machine
end

