-- ==== Sys2Proof/Machine/Crc.lean ====
section
/-! DEFINITION. The CRC-16/MODBUS generator: the pure function (42_crc16.md R100) and the operations on `e_crc` (R95 to R99). -/

namespace Sys2Proof.Machine

/-- CRC_BIT (R100). -/
def crcBit (t : BitVec 16) : BitVec 16 := if t.getLsbD 0 then (t >>> 1) ^^^ Config.crcPoly else t >>> 1

/-- CRC_BIT applied `k` times. -/
def crcBits : Nat → BitVec 16 → BitVec 16
  | 0, t => t
  | k + 1, t => crcBits k (crcBit t)

/-- CRC_BYTE (R100). -/
def crcByte (c : BitVec 16) (b : Byte) : BitVec 16 := crcBits 8 (c ^^^ b.setWidth 16)

/-- CRC16 of a byte sequence (R100). -/
def crc16 (p : Frame) : BitVec 16 := p.foldl crcByte Config.crcInit

/-- TBL of the table form (R102). -/
def crcTable (i : Byte) : BitVec 16 := crcBits 8 (i.setWidth 16)

/-- CRC_INIT (R95): `e_crc <- 0xFFFF`. -/
def execCrcInit (s : State) : Result := .next (s.setEm { s.em with crc := Config.crcInit })

/-- CRC_BYTE_IN (R96): `t = e_crc ^ zext_16(FrameRead(q_head, e_idx))`, combinational. -/
def execCrcByteIn (s : State) : Result :=
  .next (driveT (s.em.crc ^^^ (headRead s s.em.idx.toNat).setWidth 16) s)

/-- CRC_SHIFT (R97): `e_crc <- t >> 1`. -/
def execCrcShift (s : State) : Result := .next (s.setEm { s.em with crc := s.sig.t >>> 1 })

/-- CRC_SHIFT_XOR (R98): `e_crc <- (t >> 1) ^ 0xA001`. -/
def execCrcShiftXor (s : State) : Result := .next (s.setEm { s.em with crc := (s.sig.t >>> 1) ^^^ Config.crcPoly })

/-- The bit step of an E_CRC cycle (R99): CRC_BYTE_IN when `first` = 1, else `t = e_crc`; then the shift that `t[0]` selects (R53). -/
def crcBitStep (s : State) : Result :=
  andThen (if s.em.bit = 0 then execCrcByteIn s else .next (driveT s.em.crc s)) fun s =>
    if s.sig.t.getLsbD 0 then execCrcShiftXor s else execCrcShift s

end Sys2Proof.Machine
end

