-- ==== Sys2Proof/Machine/Validator.lean ====
section
/-! DEFINITION. The frame validator: the pure function VALIDATE (43_frame_validator.md R103) and its four operations (R104 to R107). -/

namespace Sys2Proof.Machine

/-- `f[i]` of a frame. -/
def frameByte (f : Frame) (i : Nat) : Byte := f.getD i 0

/-- The payload `f[0 : n-2]` (30_encoding.md R48). -/
def payload (f : Frame) : Frame := f.take (f.length - 2)

/-- The received CRC of a frame (20_memory.md R34). -/
def frameReceivedCrc (f : Frame) : BitVec 16 :=
  receivedCrc (frameByte f (f.length - 2)) (frameByte f (f.length - 1))

/-- VALIDATE with the computed CRC given (R103). -/
def validateWith (crc : BitVec 16) (f : Frame) (ts : BitVec 64) : Record :=
  let n := BitVec.ofNat 9 f.length
  if f.length < Config.minFrame then ⟨.shortFrame, 0, 0, 0, n, ts⟩
  else if frameReceivedCrc f ≠ crc then ⟨.badCrc, 0, 0, 0, n, ts⟩
  else if 0x80 < (frameByte f 1).toNat then ⟨.exception, frameByte f 0, frameByte f 1, frameByte f 2, n, ts⟩
  else ⟨.ok, frameByte f 0, frameByte f 1, 0, n, ts⟩

/-- VALIDATE(f, ts) (R103). -/
def validate (f : Frame) (ts : BitVec 64) : Record := validateWith (crc16 (payload f)) f ts

/-- The status, slave, func and exc of the record. -/
def setClass (st : Status) (slave func exc : Byte) (s : State) : State :=
  s.setRecord { s.record with status := st, slave := slave, func := func, exc := exc }

/-- V_SHORT_FRAME (R104). -/
def execVShortFrame (s : State) : Result := .next (setClass .shortFrame 0 0 0 s)

/-- V_BAD_CRC (R105). -/
def execVBadCrc (s : State) : Result := .next (setClass .badCrc 0 0 0 s)

/-- V_OK (R106). -/
def execVOk (s : State) : Result := .next (setClass .ok (headRead s 0) (headRead s 1) 0 s)

/-- V_EXCEPTION (R107). -/
def execVException (s : State) : Result :=
  .next (setClass .exception (headRead s 0) (headRead s 1) (headRead s 2) s)

/-- The operation that VSEL selects on the head frame (30_encoding.md R54): length, then CRC, then the exception test. -/
def classifyHead (s : State) : Result :=
  if headLen s < Config.minFrame then execVShortFrame s
  else if headReceivedCrc s ≠ s.em.crc then execVBadCrc s
  else if 0x80 < (headRead s 1).toNat then execVException s
  else execVOk s

end Sys2Proof.Machine
end

