-- ==== Sys2Proof/Machine/Formatter.lean ====
section
/-! DEFINITION. The record formatter: the pure functions of 44_record_formatter.md (R110 to R117) and the operation of each, which drives
its result. -/

namespace Sys2Proof.Machine

/-- HEXDIGIT (R110): upper case (D23). -/
def hexDigit (v : Nat) : Byte := if v < 10 then BitVec.ofNat 8 (0x30 + v) else BitVec.ofNat 8 (0x41 + v - 10)

/-- HEX_BYTE (R110). -/
def hexByteText (b : Byte) : Text := [hexDigit (b.toNat / 16), hexDigit (b.toNat % 16)]

/-- The bytes of a frame in hexadecimal after the first, each after a `-`. -/
def hexTail : Frame → Text
  | [] => []
  | b :: f => ascii ['-'] ++ hexByteText b ++ hexTail f

/-- HEX_FRAME (R111): the bytes in frame order, joined by `-`; the empty text for the empty frame (D35). -/
def hexFrameText : Frame → Text
  | [] => []
  | b :: f => hexByteText b ++ hexTail f

/-- STATUS_TOKEN (R112): the status OK is written `NO`. -/
def statusTokenText : Status → Text
  | .ok => ascii ['N', 'O']
  | .badCrc => ascii ['B', 'A', 'D', '_', 'C', 'R', 'C']
  | .shortFrame => ascii ['S', 'H', 'O', 'R', 'T', '_', 'F', 'R', 'A', 'M', 'E']
  | .exception => ascii ['E', 'X', 'C', 'E', 'P', 'T', 'I', 'O', 'N']

/-- `D(x) = chr(0x30 + x)` (R113). -/
def digit (x : Nat) : Byte := BitVec.ofNat 8 (0x30 + x)

/-- DEC_U8 (R113): no leading zeros. -/
def decU8Text (v : Byte) : Text :=
  let n := v.toNat
  if n < 10 then [digit n]
  else if n < 100 then [digit (n / 10), digit (n % 10)]
  else [digit (n / 100), digit (n / 10 % 10), digit (n % 10)]

/-- CIVIL_FROM_DAYS (R114): the proleptic Gregorian date of a day count from 1970-01-01. `/` on Int by a positive number rounds toward
minus infinity, as R114 asks. -/
def civilFromDays (z0 : Int) : Int × Int × Int :=
  let z := z0 + 719468
  let era := z / 146097
  let doe := z - era * 146097
  let yoe := (doe - doe / 1460 + doe / 36524 - doe / 146096) / 365
  let y := yoe + era * 400
  let doy := doe - (365 * yoe + yoe / 4 - yoe / 100)
  let mp := (5 * doy + 2) / 153
  let d := doy - (153 * mp + 2) / 5 + 1
  let m := if mp < 10 then mp + 3 else mp - 9
  (y + (if m ≤ 2 then 1 else 0), m, d)

/-- DEC2 (R115). -/
def dec2 (v : Nat) : Text := [digit (v / 10 % 10), digit (v % 10)]

/-- DEC3 (R115). -/
def dec3 (v : Nat) : Text := [digit (v / 100 % 10), digit (v / 10 % 10), digit (v % 10)]

/-- DEC4 (R115). -/
def dec4 (v : Nat) : Text := [digit (v / 1000 % 10), digit (v / 100 % 10), digit (v / 10 % 10), digit (v % 10)]

/-- The text of TIMESTAMP for a time within TS_MAX (R115). -/
def timestampText (ts : BitVec 64) : Text :=
  let days := ts.toNat / 86400000
  let rem := ts.toNat % 86400000
  let civil := civilFromDays days
  dec4 civil.1.toNat ++ ascii ['-'] ++ dec2 civil.2.1.toNat ++ ascii ['-'] ++ dec2 civil.2.2.toNat
    ++ ascii ['T'] ++ dec2 (rem / 3600000) ++ ascii [':'] ++ dec2 (rem / 60000 % 60) ++ ascii [':']
    ++ dec2 (rem / 1000 % 60) ++ ascii ['.'] ++ dec3 (rem % 1000)

/-- LINE (R116) from its four parts. -/
def lineFrom (stamp token hex dec : Text) : Text :=
  ascii ['D', 'A', 'T', 'E', '='] ++ stamp ++ ascii [';', 'E', 'R', 'R', '='] ++ token
    ++ ascii [';', 'F', 'R', 'A', 'M', 'E', '='] ++ hex ++ ascii [';', 'S', 'L', 'A', 'V', 'E', '='] ++ dec ++ ascii ['\n']

/-- LINE (R116) of a record's status, slave and time, and its frame. -/
def lineText (status : Status) (slave : Byte) (ts : BitVec 64) (f : Frame) : Text :=
  lineFrom (timestampText ts) (statusTokenText status) (hexFrameText f) (decU8Text slave)

/-- HEX_BYTE (R110). -/
def execHexByte (b : Byte) (s : State) : Result := .next (driveFmt { s.sig.fmt with hexByte := hexByteText b } s)

/-- HEX_FRAME (R111). -/
def execHexFrame (f : Frame) (s : State) : Result := .next (driveFmt { s.sig.fmt with hexFrame := hexFrameText f } s)

/-- STATUS_TOKEN (R112). -/
def execStatusToken (st : Status) (s : State) : Result :=
  .next (driveFmt { s.sig.fmt with token := statusTokenText st } s)

/-- DEC_U8 (R113). -/
def execDecU8 (v : Byte) (s : State) : Result := .next (driveFmt { s.sig.fmt with dec := decU8Text v } s)

/-- CIVIL_FROM_DAYS (R114). -/
def execCivilFromDays (z : Int) (s : State) : Result :=
  .next (driveFmt { s.sig.fmt with civil := civilFromDays z } s)

/-- TIMESTAMP (R115), which uses CIVIL_FROM_DAYS; a time above TS_MAX is refused. -/
def execTimestamp (ts : BitVec 64) (s : State) : Result :=
  if Config.tsMax < ts.toNat then .refused (.timestampOutOfRange ts)
  else
    .next (driveFmt { s.sig.fmt with
      civil := civilFromDays (ts.toNat / 86400000 : Nat)
      stamp := timestampText ts } s)

/-- LINE (R116): the formatter's functions in the order of 30_encoding.md R56, and the line from their results (log entry 14). -/
def execLine (st : Status) (slave : Byte) (ts : BitVec 64) (f : Frame) (s : State) : Result :=
  andThen (execHexFrame f s) fun s =>
  andThen (execStatusToken st s) fun s =>
  andThen (execDecU8 slave s) fun s =>
  andThen (execTimestamp ts s) fun s =>
  .next (driveFmt { s.sig.fmt with
    line := lineFrom s.sig.fmt.stamp s.sig.fmt.token s.sig.fmt.hexFrame s.sig.fmt.dec } s)

end Sys2Proof.Machine
end

