-- ==== Sys2Proof/Machine/Emitter.lean ====
section
/-! DEFINITION. The emitter's operations (45_record_pipeline.md R121 to R129). -/

namespace Sys2Proof.Machine

/-- E_IDLE_WAIT (R121): no register changes. -/
def execEIdleWait (s : State) : Result := .next s

/-- E_DEQUEUE_SHORT (R122): no CRC step runs, and `e_crc` keeps its value. -/
def execEDequeueShort (s : State) : Result := .next (s.setEm { s.em with state := .classify })

/-- E_DEQUEUE_CRC (R123), which applies CRC_INIT. -/
def execEDequeueCrc (s : State) : Result :=
  andThen (execCrcInit s) fun s => .next (s.setEm { s.em with idx := 0, bit := 0, state := .crc })

/-- E_CRC_STEP (R124): the bit step, then `e_bit <- e_bit + 1`. -/
def execECrcStep (s : State) : Result :=
  andThen (crcBitStep s) fun s => .next (s.setEm { s.em with bit := s.em.bit + 1 })

/-- E_CRC_NEXT_BYTE (R125): the bit step, then `e_bit <- 0; e_idx <- e_idx + 1`. -/
def execECrcNextByte (s : State) : Result :=
  andThen (crcBitStep s) fun s => .next (s.setEm { s.em with bit := 0, idx := s.em.idx + 1 })

/-- E_CRC_DONE (R126): the bit step, then `e_bit <- 0; e_state <- E_CLASS`. -/
def execECrcDone (s : State) : Result :=
  andThen (crcBitStep s) fun s => .next (s.setEm { s.em with bit := 0, state := .classify })

/-- E_CLASSIFY (R127): the validator's operation on the head frame, `rec_len` and `rec_ts`, then the line; a time above TS_MAX is
refused by TIMESTAMP. -/
def execEClassify (s : State) : Result :=
  andThen (classifyHead s) fun s =>
  let s := s.setRecord { s.record with len := s.q.headEntry.len, ts := s.q.headEntry.ts }
  andThen (execLine s.record.status s.record.slave s.record.ts (headFrame s) s) fun s =>
  .next (s.setEm { s.em with line := s.sig.fmt.line, lidx := 0, state := .line })

/-- E_LINE_CHAR (R128): the output of R118, then `e_lidx <- e_lidx + 1`. -/
def execELineChar (s : State) : Result := .next ((driveLine s).setEm { s.em with lidx := s.em.lidx + 1 })

/-- E_LINE_LAST (R129): the output of R118, `pop` = 1, `e_state <- E_IDLE`. -/
def execELineLast (s : State) : Result :=
  let s := driveLine s
  .next ((s.setSig { s.sig with pop := true }).setEm { s.em with state := .idle })

end Sys2Proof.Machine
end

