-- ==== Sys2Proof/Machine/Uart.lean ====
section
/-! DEFINITION. The UART receiver's operations (40_uart_rx.md R63 to R78). -/

namespace Sys2Proof.Machine

/-- An operation that only waits: no register changes, and the receiver drives nothing. -/
def uartWait (s : State) : Result := .next (uartEnd s.uart .quiet s)

/-- An operation that only moves to another state. -/
def uartMove (st : UState) (s : State) : Result := .next (uartEnd { s.uart with state := st } .quiet s)

/-- `u_cnt <- u_cnt + 1`. -/
def uartCount (s : State) : Result := .next (uartEnd { s.uart with cnt := s.uart.cnt + 1 } .quiet s)

/-- The last data bit's sample (R71, R72): `u_bit` stays, and the next state is `st`. -/
def uartLastBit (st : UState) (s : State) : Result :=
  .next (uartEnd { s.uart with shift := shiftIn s.sig.rxdS s.uart.shift, cnt := 1, state := st } .quiet s)

/-- The stop sample (R76): the byte is delivered with its error signals, the flags stick, and the next state is `st`. -/
def uartDeliver (st : UState) (s : State) : Result :=
  .next ((uartEnd { s.uart with state := st } (deliveredRx s) s).setFlags (stickRx (deliveredRx s) s.flags))

/-- U_STOPPED (R63). -/
def execUStopped (s : State) : Result := uartMove .halt s

/-- U_IDLE_WAIT (R64). -/
def execUIdleWait (s : State) : Result := uartWait s

/-- U_START_DETECT (R65). -/
def execUStartDetect (s : State) : Result := .next (uartEnd { s.uart with state := .start, cnt := 1 } .quiet s)

/-- U_START_COUNT (R66). -/
def execUStartCount (s : State) : Result := uartCount s

/-- U_START_CONFIRM (R67). -/
def execUStartConfirm (s : State) : Result :=
  .next (uartEnd { s.uart with state := .data, cnt := 1, bit := 0 } .quiet s)

/-- U_START_REJECT (R68). -/
def execUStartReject (s : State) : Result := uartMove .idle s

/-- U_DATA_COUNT (R69). -/
def execUDataCount (s : State) : Result := uartCount s

/-- U_DATA_SAMPLE (R70). -/
def execUDataSample (s : State) : Result :=
  .next (uartEnd { s.uart with shift := shiftIn s.sig.rxdS s.uart.shift, cnt := 1, bit := s.uart.bit + 1 } .quiet s)

/-- U_DATA_LAST_NOPAR (R71). -/
def execUDataLastNopar (s : State) : Result := uartLastBit .stop s

/-- U_DATA_LAST_PAR (R72). -/
def execUDataLastPar (s : State) : Result := uartLastBit .parity s

/-- U_PAR_COUNT (R73). -/
def execUParCount (s : State) : Result := uartCount s

/-- U_PAR_SAMPLE (R74). -/
def execUParSample (s : State) : Result :=
  .next (uartEnd { s.uart with par := s.sig.rxdS, cnt := 1, state := .stop } .quiet s)

/-- U_STOP_COUNT (R75). -/
def execUStopCount (s : State) : Result := uartCount s

/-- The state after the stop sample (R76): `(rxd_s == 1) ? U_IDLE : U_WAIT_IDLE`. -/
def afterStop (rxdS : Bool) : UState := if rxdS then .idle else .waitIdle

/-- U_STOP_SAMPLE (R76). -/
def execUStopSample (s : State) : Result := uartDeliver (afterStop s.sig.rxdS) s

/-- U_STOP_SAMPLE_FERR (R76): the same pseudocode, selected with `rxd_s` = 0. -/
def execUStopSampleFerr (s : State) : Result := uartDeliver (afterStop s.sig.rxdS) s

/-- U_WAIT_LOW (R77). -/
def execUWaitLow (s : State) : Result := uartWait s

/-- U_WAIT_RELEASE (R78). -/
def execUWaitRelease (s : State) : Result := uartMove .idle s

end Sys2Proof.Machine
end

