-- ==== Sys2Proof/Machine/Dispatch.lean ====
section
/-! DEFINITION. What each operation does to the state: one arm per constructor of Instr. -/

namespace Sys2Proof.Machine

def exec (i : Instr) (s : State) : Host.Outcome State Fault Refusal :=
  match i with
  | .uStopped => Sys2Proof.Machine.execUStopped s
  | .uIdleWait => Sys2Proof.Machine.execUIdleWait s
  | .uStartDetect => Sys2Proof.Machine.execUStartDetect s
  | .uStartCount => Sys2Proof.Machine.execUStartCount s
  | .uStartConfirm => Sys2Proof.Machine.execUStartConfirm s
  | .uStartReject => Sys2Proof.Machine.execUStartReject s
  | .uDataCount => Sys2Proof.Machine.execUDataCount s
  | .uDataSample => Sys2Proof.Machine.execUDataSample s
  | .uDataLastNopar => Sys2Proof.Machine.execUDataLastNopar s
  | .uDataLastPar => Sys2Proof.Machine.execUDataLastPar s
  | .uParCount => Sys2Proof.Machine.execUParCount s
  | .uParSample => Sys2Proof.Machine.execUParSample s
  | .uStopCount => Sys2Proof.Machine.execUStopCount s
  | .uStopSample => Sys2Proof.Machine.execUStopSample s
  | .uStopSampleFerr => Sys2Proof.Machine.execUStopSampleFerr s
  | .uWaitLow => Sys2Proof.Machine.execUWaitLow s
  | .uWaitRelease => Sys2Proof.Machine.execUWaitRelease s
  | .cStopped => Sys2Proof.Machine.execCStopped s
  | .cSettleWait => Sys2Proof.Machine.execCSettleWait s
  | .cSettleDrain => Sys2Proof.Machine.execCSettleDrain s
  | .cIdleWait => Sys2Proof.Machine.execCIdleWait s
  | .cIdleEmptyRead => Sys2Proof.Machine.execCIdleEmptyRead s
  | .cIdleFirstByte => Sys2Proof.Machine.execCIdleFirstByte s
  | .cColWait => Sys2Proof.Machine.execCColWait s
  | .cColSilenceClose => Sys2Proof.Machine.execCColSilenceClose s
  | .cColAppend => Sys2Proof.Machine.execCColAppend s
  | .cColFullClose => Sys2Proof.Machine.execCColFullClose s
  | .crcInit => Sys2Proof.Machine.execCrcInit s
  | .crcByteIn => Sys2Proof.Machine.execCrcByteIn s
  | .crcShift => Sys2Proof.Machine.execCrcShift s
  | .crcShiftXor => Sys2Proof.Machine.execCrcShiftXor s
  | .vShortFrame => Sys2Proof.Machine.execVShortFrame s
  | .vBadCrc => Sys2Proof.Machine.execVBadCrc s
  | .vOk => Sys2Proof.Machine.execVOk s
  | .vException => Sys2Proof.Machine.execVException s
  | .eIdleWait => Sys2Proof.Machine.execEIdleWait s
  | .eDequeueShort => Sys2Proof.Machine.execEDequeueShort s
  | .eDequeueCrc => Sys2Proof.Machine.execEDequeueCrc s
  | .eCrcStep => Sys2Proof.Machine.execECrcStep s
  | .eCrcNextByte => Sys2Proof.Machine.execECrcNextByte s
  | .eCrcDone => Sys2Proof.Machine.execECrcDone s
  | .eClassify => Sys2Proof.Machine.execEClassify s
  | .eLineChar => Sys2Proof.Machine.execELineChar s
  | .eLineLast => Sys2Proof.Machine.execELineLast s
  | .hexByte b => Sys2Proof.Machine.execHexByte b s
  | .hexFrame f => Sys2Proof.Machine.execHexFrame f s
  | .statusToken st => Sys2Proof.Machine.execStatusToken st s
  | .decU8 v => Sys2Proof.Machine.execDecU8 v s
  | .civilFromDays z => Sys2Proof.Machine.execCivilFromDays z s
  | .timestamp ts => Sys2Proof.Machine.execTimestamp ts s
  | .line st slave ts f => Sys2Proof.Machine.execLine st slave ts f s
  | .fatalEntry => Sys2Proof.Machine.execFatalEntry s
  | .queueCommit => Sys2Proof.Machine.execQueueCommit s

end Sys2Proof.Machine
end

