-- ==== Sys2Proof/Machine/Cycle.lean ====
section
/-! DEFINITION. One clock cycle: the parts of 00_scope.md R10 in their order, each engine running the operations its selector decodes to. -/

namespace Sys2Proof.Machine

/-- Operations one after another, stopping at the first fault or refusal. -/
def execAll : List Instr → State → Result
  | [], s => .next s
  | i :: is, s => andThen (exec i s) (execAll is)

/-- The operations a selector selects. A selector that matches no row raises `Unreachable` and picks no behaviour (30_encoding.md R57), and
the model keeps stepping (60_exceptions.md R137): no operation of the engine runs, so its registers keep their values and it drives
nothing (DEDUCED, log entry 18). -/
def runSelector (sel : Selector) (s : State) : Result :=
  match decode sel with
  | .ok ops => execAll ops s
  | .error (.noRow e w) => .next (raiseFault (.unreachable e w) s)

/-- R10 (1): the outputs, computed from the start-of-cycle state; no other signal of the cycle is driven yet. -/
def beginCycle (s : State) : State := s.setSig { Signals.quiet with out := outputs s }

/-- R10 (2): the receiver (40_uart_rx.md R60, R62). -/
def uartPart (s : State) : Result := runSelector (.usel (usel (sampleLine s))) (sampleLine s)

/-- R10 (3): `pop` (45_record_pipeline.md R119). -/
def popPart (s : State) : State := s.setSig { s.sig with pop := popRequest s }

/-- R10 (4): the collector (41_frame_collector.md R80). -/
def collectorPart (s : State) : Result := runSelector (.csel (csel s)) s

/-- R10 (5): the emitter (45_record_pipeline.md). -/
def emitterPart (s : State) : Result := runSelector (.esel (esel s)) s

/-- A cycle with `rst` = 0 (R10): outputs, FATAL_ENTRY, receiver, pop, collector, emitter, queue commit. Every part reads registers that no
earlier part of the cycle writes, or named signals, so each read is of the start of the cycle (DEDUCED, log entry 10). -/
def cycle (s : State) : Result :=
  andThen (exec .fatalEntry (beginCycle s)) fun s =>
  andThen (uartPart s) fun s =>
  andThen (collectorPart (popPart s)) fun s =>
  andThen (emitterPart s) fun s =>
  exec .queueCommit s

/-- One rising edge of `clk` (R10). `rst` = 1 overrides everything (60_exceptions.md R138). A cycle with `rst` = 0 is refused before any
reset (70_reset_and_hazards.md R148) and with an illegal configuration (10_state.md R17; DEDUCED, log entry 11). -/
def clockEdge (s : State) : Result :=
  if s.pins.rst then .next (endCycle (resetCycle s))
  else if !s.resetSeen then .refused .noReset
  else if !cfgLegal s.cfg then .refused .illegalConfiguration
  else andThen (cycle s) fun s => .next (endCycle s)

end Sys2Proof.Machine
end

