-- ==== Sys2Proof/Machine/Place.lean ====
section
/-! DEFINITION. Setting the state so that the very next cycle's selector is a given word. The block fetches no instruction
(20_memory.md R42): its conditions select the operation, so the conditions are what is placed (log entry 9). -/

namespace Sys2Proof.Machine

/-- The state of a three-bit code (30_encoding.md R46). -/
def uStateOf (c : BitVec 3) : UState :=
  match c.toNat with
  | 0 => .idle
  | 1 => .start
  | 2 => .data
  | 3 => .parity
  | 4 => .stop
  | 5 => .waitIdle
  | 6 => .halt
  | _ => .reserved

def cStateOf (c : BitVec 2) : CState :=
  match c.toNat with
  | 0 => .settle
  | 1 => .idle
  | 2 => .collect
  | _ => .halt

def eStateOf (c : BitVec 2) : EState :=
  match c.toNat with
  | 0 => .idle
  | 1 => .crc
  | 2 => .classify
  | _ => .line

/-- A cycle with `rst` = 0 that runs, with `stop` as given; an engine that could not go on without `stop` is put back to its reset state. -/
def placeStop (stop : Bool) (s : State) : State :=
  { s with
    pins := { s.pins with rst := false, srcErr := stop }
    flags := { s.flags with fatal := s.flags.fatal && stop }
    resetSeen := true
    cfg := if cfgLegal s.cfg then s.cfg else .latch .default
    uart := if s.uart.state = .halt ∨ s.uart.state = .reserved then .reset else s.uart
    col := if s.col.state = .halt then .reset else s.col }

/-- The receiver's conditions for a USEL word (R51). -/
def placeUsel (w : BitVec 8) (s : State) : State :=
  let s := placeStop (w.getLsbD 7) s
  let st := uStateOf (w.extractLsb' 4 3)
  let parity := if w.getLsbD 0 then (if s.cfg.parity = parityNone then parityEven else s.cfg.parity) else parityNone
  let cnt :=
    match st with
    | .start => if w.getLsbD 3 then halfBit s.cfg else 0
    | .data | .parity | .stop => if w.getLsbD 3 then s.cfg.baudDiv else 0
    | .idle | .waitIdle | .halt | .reserved => s.uart.cnt
  let bit := if w.getLsbD 1 then 7 else if s.uart.bit = 7 then 0 else s.uart.bit
  { s with
    cfg := { s.cfg with parity := parity }
    uart := { s.uart with sync2 := w.getLsbD 2, state := st, cnt := cnt, bit := bit } }

/-- The collector's conditions for a CSEL word (R52); a strobe comes from the receiver's stop sample. -/
def placeCsel (w : BitVec 6) (s : State) : State :=
  let s := placeStop (w.getLsbD 5) s
  let st := cStateOf (w.extractLsb' 3 2)
  let timer :=
    match st with
    | .settle => if w.getLsbD 1 then s.cfg.settle else s.cfg.settle + 1
    | .idle | .collect | .halt => if w.getLsbD 1 then s.cfg.tmo - 1 else s.cfg.tmo
  let len : BitVec 9 := if w.getLsbD 0 then 255 else if st = .collect then 1 else 0
  { s with
    uart :=
      if w.getLsbD 2 then { s.uart with sync2 := true, state := .stop, cnt := s.cfg.baudDiv }
      else { s.uart with sync2 := true, state := .idle }
    col := { s.col with state := st, timer := timer, len := len } }

/-- One head frame of length `n` in the queue, with a time that can be formatted. -/
def placeHead (n : BitVec 9) (s : State) : State :=
  s.setQ { s.q.setEntry s.q.head { s.q.headEntry with len := n, ts := 0 } with count := 1 }

/-- The emitter's conditions for an ESEL word (R55). -/
def placeEsel (w : BitVec 7) (s : State) : State :=
  let s := placeStop false s
  let n : BitVec 9 := if w.getLsbD 3 then 4 else 8
  let s := placeHead n s
  { s with
    q := { s.q with count := if w.getLsbD 4 then 1 else 0 }
    em := { s.em with
      state := eStateOf (w.extractLsb' 5 2)
      bit := if w.getLsbD 2 then 7 else 0
      idx := if w.getLsbD 1 then n.setWidth 8 - 3 else 0
      line := ascii ['D', '\n']
      lidx := if w.getLsbD 0 then 1 else 0 } }

/-- The CRC generator's conditions for a KSEL word (R53): an E_CRC cycle of an 8-byte frame. -/
def placeKsel (w : BitVec 2) (s : State) : State :=
  let s := placeHead 8 (placeStop false s)
  let low : BitVec 16 := (BitVec.ofBool (w.getLsbD 0)).setWidth 16
  { s with
    em := { s.em with
      state := .crc
      idx := 0
      bit := if w.getLsbD 1 then 0 else 1
      crc := if w.getLsbD 1 then (headRead s 0).setWidth 16 ^^^ low else low } }

/-- The validator's conditions for a VSEL word (R54): an E_CLASS cycle. -/
def placeVsel (w : BitVec 3) (s : State) : State :=
  let n : BitVec 9 := if w.getLsbD 2 then 5 else 4
  let s := placeHead n (placeStop false s)
  let e := s.q.headEntry
  let s := s.setQ (s.q.setEntry s.q.head { e with bytes := memWrite e.bytes 1 (if w.getLsbD 0 then 0x81 else 0x01) })
  { s with
    em := { s.em with
      state := .classify
      crc := if w.getLsbD 1 then headReceivedCrc s else headReceivedCrc s ^^^ 1 } }

/-- The conditions that make the next cycle's selector of the engine the given one. -/
def placeSelector (sel : Selector) (s : State) : State :=
  match sel with
  | .usel w => placeUsel w s
  | .csel w => placeCsel w s
  | .ksel w => placeKsel w s
  | .vsel w => placeVsel w s
  | .esel w => placeEsel w s

/-- The same for the bits of an opcode table row; bits that no table reads place nothing. -/
def placeWord (nbits w : Nat) (s : State) : State :=
  match tableSelector nbits w with
  | none => s
  | some sel => placeSelector sel s

end Sys2Proof.Machine
end

