-- ==== Sys2Proof/Machine/Observe.lean ====
section
/-! DEFINITION. What a model observes of a run (60_exceptions.md R145): the outputs of its cycles, its fault record, and the lines. -/

namespace Sys2Proof.Machine

/-- R145: the per-cycle output values (45_record_pipeline.md R118) and the fault record (R137). -/
structure Observation where
  outputs : List Outputs
  faults : List Fault
  deriving DecidableEq, Repr

/-- A cycle's outputs before what the rest of the run shows; a fault or a refusal gives the whole run none (R137). -/
def observeCycle (o : Outputs) (rest : Host.Outcome Observation Fault Refusal) : Host.Outcome Observation Fault Refusal :=
  match rest with
  | .next r => .next { r with outputs := o :: r.outputs }
  | .fault r => .fault r
  | .refused r => .refused r

/-- The observation of the next `n` cycles. -/
def observe : Nat → State → Host.Outcome Observation Fault Refusal
  | 0, s => .next ⟨[], s.faults⟩
  | n + 1, s =>
    match step s with
    | .next t => observeCycle (outputs s) (observe n t)
    | .fault r => .fault r
    | .refused r => .refused r

/-- The line that is open in a cycle: begun by `rec_valid`, one character longer in each `line_valid` cycle after it. A cycle without
`line_valid` has none, so that a line which a reset cuts is dropped (70_reset_and_hazards.md R149 (d): its `line_last` never comes;
DEDUCED, log entry 17). -/
def openLine (cur : Option Text) (o : Outputs) : Option Text :=
  if o.recValid then some [o.lineChar]
  else if o.lineValid then cur.map (· ++ [o.lineChar])
  else none

/-- The lines that end in a sequence of outputs, the first of them begun with `cur`. -/
def linesFrom (cur : Option Text) : List Outputs → List Text
  | [] => []
  | o :: os =>
    if o.lineLast then (openLine cur o).toList ++ linesFrom none os
    else linesFrom (openLine cur o) os

/-- R145, the main observation: each line is the concatenation of the `line_char` values from a `rec_valid` cycle to the next `line_last`
cycle. -/
def linesOf (os : List Outputs) : List Text := linesFrom none os

end Sys2Proof.Machine
end

