-- ==== Sys2Proof/Safety.lean ====
section
/-! DEFINITION. The invariants of the block: what 10_state.md R14 to R25, 20_memory.md R28 and 45_record_pipeline.md say holds in every cycle,
as predicates on any state. -/

namespace Sys2Proof.Machine

/-- No fault has been recorded: "A faulted state is never a valid final state" (60_exceptions.md R137), and a run with a fault is not a valid
run (93_implementation_defined.md). -/
abbrev ValidFinal (s : State) : Prop := s.faults = []

/-- Every byte array is in canonical form (strictly rising indices below 256, no unwritten byte listed). -/
def FramesCanonical (s : State) : Prop :=
  s.col.buf.wf = true ∧ s.q.e0.bytes.wf = true ∧ s.q.e1.bytes.wf = true

/-- TMO is what R16 computes from the latched registers. -/
def TmoDerived (c : Cfg) : Prop :=
  c.tmo = silenceThreshold ⟨c.baudDiv, c.parity, c.stop, c.tmoOvrEn, c.tmoOvr, c.settle⟩

/-- The receiver's counter and state (R18, R25, 30_encoding.md R57): `u_cnt` within the bit it counts, U_HALT only after the fatal stop,
the reserved code never. -/
def UartInv (s : State) : Prop :=
  match s.uart.state with
  | .start => 1 ≤ s.uart.cnt.toNat ∧ s.uart.cnt.toNat ≤ s.cfg.baudDiv.toNat / 2
  | .data | .parity | .stop => 1 ≤ s.uart.cnt.toNat ∧ s.uart.cnt.toNat ≤ s.cfg.baudDiv.toNat
  | .idle | .waitIdle => s.uart.cnt.toNat ≤ s.cfg.baudDiv.toNat
  | .halt => s.uart.cnt.toNat ≤ s.cfg.baudDiv.toNat ∧ s.flags.fatal = true
  | .reserved => False

/-- The collector's timer and length (R19, R25). -/
def CollectorInv (s : State) : Prop :=
  match s.col.state with
  | .settle => s.col.timer.toNat ≤ s.cfg.settle.toNat ∧ s.col.len = 0
  | .idle => s.col.timer.toNat < s.cfg.tmo.toNat ∧ s.col.len = 0
  | .collect => s.col.timer.toNat < s.cfg.tmo.toNat ∧ 1 ≤ s.col.len.toNat ∧ s.col.len.toNat ≤ 255
  | .halt => s.col.len = 0 ∧ s.flags.fatal = true

/-- A queue entry in use holds a frame of 1..256 bytes (R20). -/
def EntryInUse (e : QEntry) : Prop := 1 ≤ e.len.toNat ∧ e.len.toNat ≤ Config.chunk

/-- The queue's occupancy and the entries in use (R20): `q[(q_head + j) mod 2]` for j < `q_count`. -/
def QueueInv (s : State) : Prop :=
  s.q.count.toNat ≤ Config.fqDepth
    ∧ (1 ≤ s.q.count.toNat → EntryInUse s.q.headEntry)
    ∧ (s.q.count.toNat = 2 → EntryInUse (s.q.entry (s.q.head + 1)))

/-- The CRC register inside E_CRC: the bytes before `e_idx` are done, and `e_bit` bit steps of byte `e_idx` (42_crc16.md R99, R100). -/
def crcSoFar (s : State) : BitVec 16 :=
  let before := crc16 ((headFrame s).take s.em.idx.toNat)
  if s.em.bit = 0 then before
  else crcBits s.em.bit.toNat (before ^^^ (headRead s s.em.idx.toNat).setWidth 16)

/-- The emitter (R21, R25, R100, R127): while it works on a frame the frame stays at the queue's head; in E_CRC the CRC register
holds the CRC of what has been processed; in E_CLASS that of the whole payload; in E_LINE the record is VALIDATE of the
head frame and the line is its LINE. -/
def EmitterInv (s : State) : Prop :=
  match s.em.state with
  | .idle => True
  | .crc =>
    1 ≤ s.q.count.toNat ∧ Config.minFrame ≤ headLen s ∧ s.em.idx.toNat + 3 ≤ headLen s ∧ s.em.crc = crcSoFar s
  | .classify =>
    1 ≤ s.q.count.toNat ∧ (Config.minFrame ≤ headLen s → s.em.crc = crc16 (payload (headFrame s)))
  | .line =>
    1 ≤ s.q.count.toNat ∧ s.em.lidx.toNat < s.em.line.length
      ∧ s.record = validate (headFrame s) s.q.headEntry.ts
      ∧ s.em.line = lineText s.record.status s.record.slave s.record.ts (headFrame s)
      ∧ s.record.ts.toNat ≤ Config.tsMax

/-- The invariant of every run from reset. -/
structure RunInv (s : State) : Prop where
  frames : FramesCanonical s
  tmo : TmoDerived s.cfg
  uart : UartInv s
  col : CollectorInv s
  queue : QueueInv s
  em : EmitterInv s
  /-- every state after a reset cycle -/
  resetSeen : s.resetSeen = true

end Sys2Proof.Machine
end

