-- ==== Sys2Proof/Certificates/Slice0/Obligations.lean ====
section
/-! DEFINITION. The statements about the block, for the provers. Each docstring names the rule it formalises. A next state is written as the
old state with the fields that change; every field not named there, registers, flags, storage, queue and record among them, is unchanged. -/

open Sys2Proof Sys2Proof.Machine

/-! ## Reset and configuration -/

/-- R146. From every state, a cycle with `rst` = 1 leaves the reset table, whatever `rxd`, `src_err` and `now_ms` are: the configuration latched,
every output 0. `c_buf` and the queue's entries are unspecified there, so nothing is said of them. -/
def Obligations.ResetCycleLeavesResetTable : Prop :=
  ∀ s : State, s.pins.rst = true → ∃ t, step s = .next t
    ∧ t.uart = { sync1 := true, sync2 := true, state := .idle, cnt := 0, bit := 0, shift := 0, par := false }
    ∧ t.col.state = .settle ∧ t.col.timer = 0 ∧ t.col.len = 0
    ∧ t.q.head = 0 ∧ t.q.count = 0
    ∧ t.em = { state := .idle, crc := 0, idx := 0, bit := 0, lidx := 0, line := [] }
    ∧ t.record = { status := .ok, slave := 0, func := 0, exc := 0, len := 0, ts := 0 }
    ∧ t.flags = { perr := false, ferr := false, overrun := false, fatal := false }
    ∧ t.cfg = { baudDiv := s.pins.cfg.baudDiv, parity := s.pins.cfg.parity, stop := s.pins.cfg.stop,
                tmoOvrEn := s.pins.cfg.tmoOvrEn, tmoOvr := s.pins.cfg.tmoOvr, settle := s.pins.cfg.settle,
                tmo := silenceThreshold s.pins.cfg }
    ∧ t.sig.out = { lineValid := false, lineChar := 0, lineLast := false, recValid := false, recStatus := 0, recSlave := 0,
                    recFunc := 0, recExc := 0, recLen := 0, recTs := 0, stsPerr := false, stsFerr := false,
                    stsOverrun := false, stsFatal := false, halted := false }

/-- R15. The configuration registers take the `cfg_*` inputs in a cycle with `rst` = 1 and change in no other. -/
def Obligations.ConfigurationLatchedOnlyInReset : Prop :=
  ∀ s t : State, step s = .next t →
    (s.pins.rst = true → t.cfg.baudDiv = s.pins.cfg.baudDiv ∧ t.cfg.parity = s.pins.cfg.parity ∧ t.cfg.stop = s.pins.cfg.stop
      ∧ t.cfg.tmoOvrEn = s.pins.cfg.tmoOvrEn ∧ t.cfg.tmoOvr = s.pins.cfg.tmoOvr ∧ t.cfg.settle = s.pins.cfg.settle
      ∧ t.cfg.tmo = silenceThreshold s.pins.cfg)
    ∧ (s.pins.rst = false → t.cfg = s.cfg)

/-- R16. In each reset cycle TMO becomes the override, or ceil(1001 * cfg_baud_div / 20), exactly: 32 bits lose nothing, the largest value is
839,699,611, and `bd` = 5000 gives 250250. -/
def Obligations.SilenceThresholdIsExact : Prop :=
  (∀ s : State, s.pins.rst = true → ∃ t, step s = .next t
    ∧ (s.pins.cfg.tmoOvrEn = true → t.cfg.tmo = s.pins.cfg.tmoOvr)
    ∧ (s.pins.cfg.tmoOvrEn = false →
        t.cfg.tmo.toNat = (1001 * s.pins.cfg.baudDiv.toNat + 20 - 1) / 20 ∧ t.cfg.tmo.toNat ≤ 839699611))
  ∧ silenceThreshold { baudDiv := 5000, parity := 0, stop := 0, tmoOvrEn := false, tmoOvr := 0, settle := 0 } = 250250

/-- A cycle with `rst` = 0 is refused for an illegal configuration exactly when one of the four conditions of R17 holds (once a reset has
happened). R17 makes this check when `rst` falls; that the model makes it in every cycle with `rst` = 0 is its own deduction (log entry 11). -/
def Obligations.IllegalConfigurationIsRefused : Prop :=
  ∀ s : State, s.pins.rst = false → s.resetSeen = true →
    (step s = .refused .illegalConfiguration ↔
      (s.cfg.baudDiv.toNat < 4 ∨ s.cfg.parity ∈ [5, 6, 7] ∨ s.cfg.stop = 3 ∨ (s.cfg.tmoOvrEn = true ∧ s.cfg.tmoOvr = 0)))

/-- R148. A run that does not start with a reset cycle is refused; a reset cycle ends that. -/
def Obligations.RunWithoutResetIsRefused : Prop :=
  ∀ s : State, s.resetSeen = false →
    (s.pins.rst = false → step s = .refused .noReset)
    ∧ (s.pins.rst = true → ∃ t, step s = .next t ∧ t.resetSeen = true)

/-- R147. A further reset cycle changes nothing but the configuration, which takes the values of the last one. -/
def Obligations.LongerResetChangesOnlyConfiguration : Prop :=
  ∀ s t : State, s.pins.rst = true → step s = .next t → t.pins.rst = true →
    step t = .next { t with
      cfg := { baudDiv := t.pins.cfg.baudDiv, parity := t.pins.cfg.parity, stop := t.pins.cfg.stop,
               tmoOvrEn := t.pins.cfg.tmoOvrEn, tmoOvr := t.pins.cfg.tmoOvr, settle := t.pins.cfg.settle,
               tmo := silenceThreshold t.pins.cfg }
      pins := nextPins t
      script := t.script.tail }

/-! ## Encodings -/

/-- R51 to R55. Encoding and decoding agree. Every word that an operation's match and mask admit decodes to it: to it alone, but for KSEL,
where CRC_BYTE_IN and a shift may come from one word; a word that decodes to an operation is one of that operation's words; and only
the ten operations without a selector have no word. -/
def Obligations.EncodingAndDecodingAgree : Prop :=
  (∀ (i : Instr) (free : BitVec 8) (sel : Selector), i.wf = true → encode i free = some sel →
    ∃ ops, decode sel = .ok ops ∧ i ∈ ops ∧ (sel.engine ≠ .crc → ops = [i]))
  ∧ (∀ (sel : Selector) (ops : List Instr) (i : Instr), decode sel = .ok ops → i ∈ ops → encode i sel.word = some sel)
  ∧ (∀ (i : Instr) (free : BitVec 8), encode i free = none ↔
      (i = .crcInit ∨ (∃ b, i = .hexByte b) ∨ (∃ f, i = .hexFrame f) ∨ (∃ st, i = .statusToken st) ∨ (∃ v, i = .decU8 v)
        ∨ (∃ z, i = .civilFromDays z) ∨ (∃ ts, i = .timestamp ts) ∨ (∃ st v ts f, i = .line st v ts f)
        ∨ i = .fatalEntry ∨ i = .queueCommit))

/-- R57, R137. The words without a row are exactly USEL with `stop` = 0 and `u_state` 6 or 7, and CSEL with `stop` = 0 and C_HALT. An engine
that meets such a state without `stop` records `Unreachable` and picks no behaviour, and the model keeps stepping. That no operation of the
engine runs then, and its registers stay but for the synchronizer (R60), is the model's deduction (log entry 18). -/
def Obligations.ReservedSelectorsFault : Prop :=
  (∀ w : BitVec 8, decode (.usel w) = .error (.noRow .uart w) ↔ (0x60 ≤ w.toNat ∧ w.toNat ≤ 0x7F))
  ∧ (∀ w : BitVec 6, decode (.csel w) = .error (.noRow .collector (w.setWidth 8)) ↔ (0x18 ≤ w.toNat ∧ w.toNat ≤ 0x1F))
  ∧ (∀ sel : Selector, sel.engine ≠ .uart → sel.engine ≠ .collector → ∃ ops, decode sel = .ok ops)
  ∧ (∀ s : State, s.sig.stop = false → (s.uart.state = .halt ∨ s.uart.state = .reserved) → ∃ w,
      uartPart s = .next { s with
        uart := { s.uart with sync2 := s.uart.sync1, sync1 := s.pins.rxd }
        sig := { s.sig with rxdS := s.uart.sync2 }
        faults := s.faults ++ [.unreachable .uart w] })
  ∧ (∀ s : State, s.sig.stop = false → s.col.state = .halt → ∃ w,
      collectorPart s = .next { s with faults := s.faults ++ [.unreachable .collector w] })
  ∧ (∀ s t : State, s.pins.rst = false → s.flags.fatal = false → s.pins.srcErr = false → step s = .next t →
      ((s.uart.state = .halt ∨ s.uart.state = .reserved) → ∃ w fs,
        t.faults = s.faults ++ .unreachable .uart w :: fs ∧ t.uart.state = s.uart.state ∧ t.sig.rx = ⟨false, 0, false, false⟩)
      ∧ (s.uart.state ≠ .halt → s.uart.state ≠ .reserved → s.col.state = .halt → ∃ w fs,
        t.faults = s.faults ++ .unreachable .collector w :: fs ∧ t.col = s.col ∧ t.sig.push = none))

/-- Words written out from the tables of 30_encoding.md decode to the operations they stand for. -/
def Obligations.TableWordsDecode : Prop :=
  decode (.usel 0x80) = .ok [.uStopped] ∧ decode (.usel 0x4C) = .ok [.uStopSample] ∧ decode (.usel 0x2B) = .ok [.uDataLastPar]
  ∧ decode (.csel 0x15) = .ok [.cColFullClose] ∧ decode (.csel 0x0A) = .ok [.cIdleEmptyRead]
  ∧ decode (.ksel 0x3) = .ok [.crcByteIn, .crcShiftXor] ∧ decode (.ksel 0x0) = .ok [.crcShift]
  ∧ decode (.vsel 0x7) = .ok [.vException] ∧ decode (.esel 0x61) = .ok [.eLineLast] ∧ decode (.esel 0x26) = .ok [.eCrcDone]

/-! ## One step -/

/-- A step with `rst` = 0 is: the outputs from the start-of-cycle state, FATAL_ENTRY, the receiver's decoded operation after the synchronizer's
shift, `pop`, the collector's decoded operation, the emitter's decoded operation, QUEUE_COMMIT, and the next cycle's inputs. The order is
that of R10 but for FATAL_ENTRY, whose place before the receiver is the model's deduction (log entry 10); that the cycle starts with its
signals cleared is the model's choice (log entry 5), as are the next cycle's inputs (log entry 1). -/
def Obligations.StepRunsTheDecodedOperations : Prop :=
  ∀ (s s0 s1 s2 s3 s4 : State) (iu ic ie : Instr),
    s.pins.rst = false → s.resetSeen = true → cfgLegal s.cfg = true →
    exec .fatalEntry { s with sig := { Signals.quiet with out := outputs s } } = .next s0 →
    (let a := { s0 with
        sig := { s0.sig with rxdS := s0.uart.sync2 }
        uart := { s0.uart with sync2 := s0.uart.sync1, sync1 := s0.pins.rxd } }
     decode (.usel (usel a)) = .ok [iu] ∧ exec iu a = .next s1) →
    (let b := { s1 with sig := { s1.sig with pop := popRequest s1 } }
     decode (.csel (csel b)) = .ok [ic] ∧ exec ic b = .next s2) →
    (decode (.esel (esel s2)) = .ok [ie] ∧ exec ie s2 = .next s3) →
    exec .queueCommit s3 = .next s4 →
    step s = .next { s4 with pins := nextPins s4, script := s4.script.tail }

/-- R60. In a cycle with `rst` = 0 the receiver samples the second synchronizer stage, and both stages shift, in U_HALT too; so an operation
sees the line value of two cycles before, and after a reset cycle the line reads as idle for two cycles. -/
def Obligations.LineIsSampledTwoCyclesLate : Prop :=
  (∀ s t : State, s.pins.rst = false → step s = .next t →
    t.sig.rxdS = s.uart.sync2 ∧ t.uart.sync2 = s.uart.sync1 ∧ t.uart.sync1 = s.pins.rxd)
  ∧ (∀ s t u v : State, s.pins.rst = false → t.pins.rst = false → u.pins.rst = false →
    step s = .next t → step t = .next u → step u = .next v → v.sig.rxdS = s.pins.rxd)
  ∧ (∀ s t u v : State, s.pins.rst = true → t.pins.rst = false → u.pins.rst = false →
    step s = .next t → step t = .next u → step u = .next v → u.sig.rxdS = true ∧ v.sig.rxdS = true)

/-! ## The UART receiver -/

/-- R64, R77. The two waits: no register changes. -/
def Obligations.UartWaitsChangeNoRegister : Prop :=
  (∀ s : State, s.sig.stop = false → s.uart.state = .idle → s.sig.rxdS = true → decode (.usel (usel s)) = .ok [.uIdleWait])
  ∧ (∀ s : State, s.sig.stop = false → s.uart.state = .waitIdle → s.sig.rxdS = false → decode (.usel (usel s)) = .ok [.uWaitLow])
  ∧ (∀ s : State,
      exec .uIdleWait s = .next { s with sig := { s.sig with rx := ⟨false, 0, false, false⟩ } }
      ∧ exec .uWaitLow s = .next { s with sig := { s.sig with rx := ⟨false, 0, false, false⟩ } })

/-- R66, R69, R73, R75. The four counts: `u_cnt` goes up by one, and does not pass the count at which the sample comes. -/
def Obligations.UartCountsAdvanceOneCycle : Prop :=
  (∀ s : State, s.sig.stop = false →
    (s.uart.state = .start → s.uart.cnt.toNat ≠ s.cfg.baudDiv.toNat / 2 → decode (.usel (usel s)) = .ok [.uStartCount])
    ∧ (s.uart.state = .data → s.uart.cnt ≠ s.cfg.baudDiv → decode (.usel (usel s)) = .ok [.uDataCount])
    ∧ (s.uart.state = .parity → s.uart.cnt ≠ s.cfg.baudDiv → decode (.usel (usel s)) = .ok [.uParCount])
    ∧ (s.uart.state = .stop → s.uart.cnt ≠ s.cfg.baudDiv → decode (.usel (usel s)) = .ok [.uStopCount]))
  ∧ (∀ (s : State) (i : Instr), i ∈ [Instr.uStartCount, .uDataCount, .uParCount, .uStopCount] →
      exec i s = .next { s with
        uart := { s.uart with cnt := s.uart.cnt + 1 }
        sig := { s.sig with rx := ⟨false, 0, false, false⟩ } })
  ∧ (∀ s : State,
      (s.uart.cnt.toNat < s.cfg.baudDiv.toNat / 2 → (s.uart.cnt + 1).toNat ≤ s.cfg.baudDiv.toNat / 2)
      ∧ (s.uart.cnt.toNat < s.cfg.baudDiv.toNat → (s.uart.cnt + 1).toNat ≤ s.cfg.baudDiv.toNat))

/-- R68, R78. U_START_REJECT and U_WAIT_RELEASE only go to U_IDLE: no byte is delivered and no flag is set. -/
def Obligations.UartReturnsToIdle : Prop :=
  (∀ s : State, s.sig.stop = false → s.uart.state = .start → s.uart.cnt.toNat = s.cfg.baudDiv.toNat / 2 → s.sig.rxdS = true →
    decode (.usel (usel s)) = .ok [.uStartReject])
  ∧ (∀ s : State, s.sig.stop = false → s.uart.state = .waitIdle → s.sig.rxdS = true → decode (.usel (usel s)) = .ok [.uWaitRelease])
  ∧ (∀ (s : State) (i : Instr), i ∈ [Instr.uStartReject, .uWaitRelease] →
      exec i s = .next { s with
        uart := { s.uart with state := .idle }
        sig := { s.sig with rx := ⟨false, 0, false, false⟩ } })

/-- R65, R67 (selectors and pseudocode). A low level in U_IDLE starts the count; a low level at the middle of the start bit begins the data. -/
def Obligations.UartStartBitIsTaken : Prop :=
  (∀ s : State, s.sig.stop = false → s.uart.state = .idle → s.sig.rxdS = false → decode (.usel (usel s)) = .ok [.uStartDetect])
  ∧ (∀ s : State, s.sig.stop = false → s.uart.state = .start → s.uart.cnt.toNat = s.cfg.baudDiv.toNat / 2 → s.sig.rxdS = false →
    decode (.usel (usel s)) = .ok [.uStartConfirm])
  ∧ (∀ s : State,
      exec .uStartDetect s = .next { s with
        uart := { s.uart with state := .start, cnt := 1 }
        sig := { s.sig with rx := ⟨false, 0, false, false⟩ } }
      ∧ exec .uStartConfirm s = .next { s with
        uart := { s.uart with state := .data, cnt := 1, bit := 0 }
        sig := { s.sig with rx := ⟨false, 0, false, false⟩ } })

/-- R70, R71, R72. A data sample enters `u_shift` at bit 7 and moves the others right; the last one goes to U_STOP or U_PARITY and leaves
`u_bit`; after eight samples the first is in bit 0. -/
def Obligations.UartDataBitsShiftIn : Prop :=
  (∀ s : State, s.sig.stop = false → s.uart.state = .data → s.uart.cnt = s.cfg.baudDiv →
    (s.uart.bit ≠ 7 → decode (.usel (usel s)) = .ok [.uDataSample])
    ∧ (s.uart.bit = 7 → s.cfg.parity = 0 → decode (.usel (usel s)) = .ok [.uDataLastNopar])
    ∧ (s.uart.bit = 7 → s.cfg.parity ≠ 0 → decode (.usel (usel s)) = .ok [.uDataLastPar]))
  ∧ (∀ s : State, ∃ sh : BitVec 8,
      sh.getLsbD 7 = s.sig.rxdS ∧ (∀ j, j < 7 → sh.getLsbD j = s.uart.shift.getLsbD (j + 1))
      ∧ exec .uDataSample s = .next { s with
          uart := { s.uart with shift := sh, cnt := 1, bit := s.uart.bit + 1 }
          sig := { s.sig with rx := ⟨false, 0, false, false⟩ } }
      ∧ exec .uDataLastNopar s = .next { s with
          uart := { s.uart with shift := sh, cnt := 1, state := .stop }
          sig := { s.sig with rx := ⟨false, 0, false, false⟩ } }
      ∧ exec .uDataLastPar s = .next { s with
          uart := { s.uart with shift := sh, cnt := 1, state := .parity }
          sig := { s.sig with rx := ⟨false, 0, false, false⟩ } })
  ∧ (∀ (b x : BitVec 8),
      shiftIn (b.getLsbD 7) (shiftIn (b.getLsbD 6) (shiftIn (b.getLsbD 5) (shiftIn (b.getLsbD 4) (shiftIn (b.getLsbD 3)
        (shiftIn (b.getLsbD 2) (shiftIn (b.getLsbD 1) (shiftIn (b.getLsbD 0) x))))))) = b)

/-- R74. The parity bit is sampled, and the stop bit follows. -/
def Obligations.UartParityBitIsSampled : Prop :=
  (∀ s : State, s.sig.stop = false → s.uart.state = .parity → s.uart.cnt = s.cfg.baudDiv → decode (.usel (usel s)) = .ok [.uParSample])
  ∧ (∀ s : State, exec .uParSample s = .next { s with
      uart := { s.uart with par := s.sig.rxdS, cnt := 1, state := .stop }
      sig := { s.sig with rx := ⟨false, 0, false, false⟩ } })

/-- R76 (selectors and pseudocode), R44. The stop sample delivers `u_shift` with its parity and framing error, sets the sticky flags, and
goes to U_IDLE or, if the stop bit is 0, to U_WAIT_IDLE. -/
def Obligations.StopSampleDeliversTheByte : Prop :=
  (∀ s : State, s.sig.stop = false → s.uart.state = .stop → s.uart.cnt = s.cfg.baudDiv →
    decode (.usel (usel s)) = .ok [if s.sig.rxdS then .uStopSample else .uStopSampleFerr])
  ∧ (∀ (s : State) (i : Instr), i ∈ [Instr.uStopSample, .uStopSampleFerr] →
      ∃ perr : Bool,
        (perr = true ↔
          ((s.cfg.parity = 1 ∧ ((List.range 8).foldl (fun x j => x ^^ s.uart.shift.getLsbD j) s.uart.par) = true)
          ∨ (s.cfg.parity = 2 ∧ ((List.range 8).foldl (fun x j => x ^^ s.uart.shift.getLsbD j) s.uart.par) = false)
          ∨ (s.cfg.parity = 3 ∧ s.uart.par = false) ∨ (s.cfg.parity = 4 ∧ s.uart.par = true)))
        ∧ exec i s = .next { s with
            uart := { s.uart with state := if s.sig.rxdS then .idle else .waitIdle }
            sig := { s.sig with rx := { strobe := true, byte := s.uart.shift, perr := perr, ferr := !s.sig.rxdS } }
            flags := { s.flags with perr := s.flags.perr || perr, ferr := s.flags.ferr || !s.sig.rxdS } })

/-- R61 (its first two sentences). Over every step with `rst` = 0: a strobe comes exactly in a cycle whose operation is a stop sample, and in
any other cycle all four receiver signals are 0. -/
def Obligations.StrobeOnlyAtStopSample : Prop :=
  ∀ s t : State, s.pins.rst = false → step s = .next t →
    (t.sig.rx.strobe = true ↔
      (s.flags.fatal = false ∧ s.pins.srcErr = false ∧ s.uart.state = .stop ∧ s.uart.cnt = s.cfg.baudDiv))
    ∧ (t.sig.rx.strobe = false → t.sig.rx = ⟨false, 0, false, false⟩)

/-- R45, R76. The stop-bit code has no effect on reception: two states that differ only in CFG_STOP step to states that differ only in it. -/
def Obligations.StopCodeHasNoEffect : Prop :=
  ∀ (s t : State) (x : BitVec 2), s.pins.rst = false → x ≠ 3 → step s = .next t →
    step { s with cfg := { s.cfg with stop := x } } = .next { t with cfg := { t.cfg with stop := x } }

/-! ## The frame collector -/

/-- R83, R85, R88. The three waits count one cycle and close nothing; a byte strobed in C_SETTLE is discarded. -/
def Obligations.CollectorTimersAdvance : Prop :=
  (∀ s : State, s.sig.stop = false →
    (s.col.state = .settle → s.col.timer ≠ s.cfg.settle → decode (.csel (csel s)) = .ok [.cSettleWait])
    ∧ (s.col.state = .idle → s.sig.rx.strobe = false → s.col.timer.toNat + 1 ≠ s.cfg.tmo.toNat →
        decode (.csel (csel s)) = .ok [.cIdleWait])
    ∧ (s.col.state = .collect → s.sig.rx.strobe = false → s.col.timer.toNat + 1 ≠ s.cfg.tmo.toNat →
        decode (.csel (csel s)) = .ok [.cColWait]))
  ∧ (∀ (s : State) (i : Instr), i ∈ [Instr.cSettleWait, .cIdleWait, .cColWait] →
      exec i s = .next { s with
        col := { s.col with timer := s.col.timer + 1 }
        sig := { s.sig with push := none } })
  ∧ (∀ s : State, s.col.timer.toNat + 1 < s.cfg.tmo.toNat → (s.col.timer + 1).toNat < s.cfg.tmo.toNat)

/-- R84, R86 (selectors and pseudocode). The settle window ends in C_IDLE, its last strobe discarded; the start timeout restarts the read
with no CLOSE. -/
def Obligations.SettleDrainAndEmptyRead : Prop :=
  (∀ s : State, s.sig.stop = false → s.col.state = .settle → s.col.timer = s.cfg.settle →
    decode (.csel (csel s)) = .ok [.cSettleDrain])
  ∧ (∀ s : State, s.sig.stop = false → s.col.state = .idle → s.sig.rx.strobe = false → s.col.timer.toNat + 1 = s.cfg.tmo.toNat →
    decode (.csel (csel s)) = .ok [.cIdleEmptyRead])
  ∧ (∀ s : State,
      exec .cSettleDrain s = .next { s with
        col := { s.col with state := .idle, timer := 0 }
        sig := { s.sig with push := none } }
      ∧ exec .cIdleEmptyRead s = .next { s with
        col := { s.col with timer := 0 }
        sig := { s.sig with push := none } })

/-- R84 (a corner case). The settle window comes once: no step with `rst` = 0 enters C_SETTLE again, whatever the rest of the block does. -/
def Obligations.SettleHappensOnce : Prop :=
  ∀ s t : State, s.pins.rst = false → s.col.state ≠ .settle → step s = .next t → t.col.state ≠ .settle

/-- R82, R63 (selectors and pseudocode). With `stop` = 1 the receiver and the collector run their STOPPED operations whatever else holds in the
cycle: U_HALT with no strobe and every other receiver register unchanged; C_HALT with the partial frame discarded and no CLOSE. -/
def Obligations.StoppedOperationsHalt : Prop :=
  (∀ s : State, s.sig.stop = true → decode (.usel (usel s)) = .ok [.uStopped] ∧ decode (.csel (csel s)) = .ok [.cStopped])
  ∧ (∀ s : State,
      exec .uStopped s = .next { s with
        uart := { s.uart with state := .halt }
        sig := { s.sig with rx := ⟨false, 0, false, false⟩ } }
      ∧ exec .cStopped s = .next { s with
        col := { s.col with state := .halt, len := 0, timer := 0 }
        sig := { s.sig with push := none } })

/-- R87. The first byte starts a frame, before a start timeout in the same cycle; every other byte of `c_buf` reads as before. -/
def Obligations.FirstByteStartsAFrame : Prop :=
  (∀ s : State, s.sig.stop = false → s.col.state = .idle → s.sig.rx.strobe = true → decode (.csel (csel s)) = .ok [.cIdleFirstByte])
  ∧ (∀ s : State, s.col.buf.wf = true → ∃ buf : Memory,
      exec .cIdleFirstByte s = .next { s with
        col := { state := .collect, timer := 0, len := 1, buf := buf }
        sig := { s.sig with push := none } }
      ∧ ∀ i, memRead buf i = if i = 0 then s.sig.rx.byte else memRead s.col.buf i)

/-- R90. A strobe in C_COLLECT appends its byte at `c_len`, even when the silence threshold is reached in the same cycle; every other byte of
`c_buf` reads as before. -/
def Obligations.AppendStoresAtTheLength : Prop :=
  (∀ s : State, s.sig.stop = false → s.col.state = .collect → s.sig.rx.strobe = true → s.col.len ≠ 255 →
    decode (.csel (csel s)) = .ok [.cColAppend])
  ∧ (∀ s : State, s.col.buf.wf = true → s.col.len.toNat ≤ 255 → ∃ buf : Memory,
      exec .cColAppend s = .next { s with
        col := { s.col with timer := 0, len := s.col.len + 1, buf := buf }
        sig := { s.sig with push := none } }
      ∧ ∀ i, memRead buf i = if i = s.col.len.toNat then s.sig.rx.byte else memRead s.col.buf i)
  ∧ (∀ s : State, s.col.len.toNat < 255 → (s.col.len + 1).toNat = s.col.len.toNat + 1 ∧ (s.col.len + 1).toNat ≤ 255)

/-- R89 (selector and pseudocode), R81. Silence closes the frame: the push request carries the `c_len` bytes of `c_buf` and this cycle's
`now_ms`. (With `c_len` above 256, which no run reaches, the index is its low 8 bits: the model's deduction, log entry 8.) -/
def Obligations.SilenceClosesTheFrame : Prop :=
  (∀ s : State, s.sig.stop = false → s.col.state = .collect → s.sig.rx.strobe = false → s.col.timer.toNat + 1 = s.cfg.tmo.toNat →
    decode (.csel (csel s)) = .ok [.cColSilenceClose])
  ∧ (∀ s : State, ∃ bytes : Frame,
      exec .cColSilenceClose s = .next { s with
        col := { s.col with state := .idle, timer := 0, len := 0 }
        sig := { s.sig with push := some { bytes := bytes, ts := s.pins.nowMs } } }
      ∧ bytes.length = s.col.len.toNat
      ∧ ∀ i (h : i < bytes.length), bytes[i] = memRead s.col.buf (i % 256))

/-- R91 (selector and pseudocode), R81. The 256th byte closes the frame at once: 255 bytes of `c_buf` and the byte itself. -/
def Obligations.FullChunkClosesTheFrame : Prop :=
  (∀ s : State, s.sig.stop = false → s.col.state = .collect → s.sig.rx.strobe = true → s.col.len = 255 →
    decode (.csel (csel s)) = .ok [.cColFullClose])
  ∧ (∀ s : State, s.col.buf.wf = true → ∃ (bytes : Frame) (buf : Memory),
      exec .cColFullClose s = .next { s with
        col := { state := .idle, timer := 0, len := 0, buf := buf }
        sig := { s.sig with push := some { bytes := bytes, ts := s.pins.nowMs } } }
      ∧ bytes.length = 256
      ∧ (∀ i (h : i < bytes.length), bytes[i] = if i = 255 then s.sig.rx.byte else memRead s.col.buf i)
      ∧ ∀ i, memRead buf i = if i = 255 then s.sig.rx.byte else memRead s.col.buf i)

/-- Log entry 8 (the model's deduction from R28's "The index is 8 bits wide"). A byte array is indexed by the low 8 bits of a number, so that
no access stops: C_COL_APPEND at every `c_len`, the head frame of every length, and the commit of every pushed frame, of which a longer one
leaves its last 256 bytes (and none while the queue is full). No run computes a number above 255. Registers wrap there (log entry 12). -/
def Obligations.ByteIndexIsEightBits : Prop :=
  (∀ s : State, s.col.buf.wf = true → ∃ buf : Memory,
    exec .cColAppend s = .next { s with
      col := { s.col with timer := 0, len := s.col.len + 1, buf := buf }
      sig := { s.sig with push := none } }
    ∧ ∀ i, memRead buf i = if i = s.col.len.toNat % 256 then s.sig.rx.byte else memRead s.col.buf i)
  ∧ (∀ s : State, (headFrame s).length = s.q.headEntry.len.toNat
    ∧ ∀ i (h : i < (headFrame s).length), (headFrame s)[i] = memRead s.q.headEntry.bytes (i % 256))
  ∧ (∀ (s : State) (p : Push), s.sig.push = some p → s.q.e0.bytes.wf = true → s.q.e1.bytes.wf = true →
    let h1 := if s.sig.pop then s.q.head + 1 else s.q.head
    let c1 := if s.sig.pop then s.q.count - 1 else s.q.count
    let k := BitVec.ofNat 1 (h1.toNat + c1.toNat)
    (c1.toNat < 2 → ∃ t, exec .queueCommit s = .next { s with q := t }
      ∧ t.head = h1 ∧ t.count = c1 + 1 ∧ t.entry (k + 1) = s.q.entry (k + 1)
      ∧ (t.entry k).len = BitVec.ofNat 9 p.bytes.length ∧ (t.entry k).ts = p.ts
      ∧ (∀ i (h : i < p.bytes.length), p.bytes.length ≤ i + 256 → memRead (t.entry k).bytes (i % 256) = p.bytes[i])
      ∧ ∀ i, p.bytes.length ≤ i → memRead (t.entry k).bytes i = memRead (s.q.entry k).bytes i)
    ∧ (2 ≤ c1.toNat → exec .queueCommit s = .next { s with
        q := { s.q with head := h1, count := c1 }
        flags := { s.flags with overrun := true }
        faults := s.faults ++ [.overrun (BitVec.ofNat 9 p.bytes.length) p.ts] }))

/-- R80 (its last sentence). The collector decides a boundary without reading byte content: with any other received byte and any other
buffer contents it goes to the same state, timer and length, and closes a frame of the same length. -/
def Obligations.BoundariesIgnoreByteContent : Prop :=
  ∀ (s t : State) (x : Byte) (m : Memory), collectorPart s = .next t →
    ∃ t', collectorPart { s with
        col := { s.col with buf := m }
        sig := { s.sig with rx := { s.sig.rx with byte := x } } } = .next t'
      ∧ t'.col.state = t.col.state ∧ t'.col.timer = t.col.timer ∧ t'.col.len = t.col.len
      ∧ t'.sig.push.map (fun p => p.bytes.length) = t.sig.push.map (fun p => p.bytes.length)

/-! ## The CRC generator -/

/-- R95 to R98, R53. What each CRC operation writes, and the operations that KSEL selects. -/
def Obligations.CrcOperationsStepTheRegister : Prop :=
  ∀ s : State,
    exec .crcInit s = .next { s with em := { s.em with crc := 0xFFFF } }
    ∧ exec .crcByteIn s = .next { s with
        sig := { s.sig with t := s.em.crc ^^^ (memRead s.q.headEntry.bytes s.em.idx.toNat).setWidth 16 } }
    ∧ exec .crcShift s = .next { s with em := { s.em with crc := s.sig.t >>> 1 } }
    ∧ exec .crcShiftXor s = .next { s with em := { s.em with crc := (s.sig.t >>> 1) ^^^ 0xA001 } }
    ∧ (let t := if s.em.bit = 0 then s.em.crc ^^^ (memRead s.q.headEntry.bytes s.em.idx.toNat).setWidth 16 else s.em.crc
       decode (.ksel (ksel s)) = .ok ((if s.em.bit = 0 then [Instr.crcByteIn] else [])
        ++ [if t.getLsbD 0 then .crcShiftXor else .crcShift]))

/-- R99, R53. The bit step of an E_CRC cycle is what KSEL's operations do one after another, starting from `t` = `e_crc`. -/
def Obligations.BitStepRunsTheSelectedCrcOperations : Prop :=
  ∀ s : State, runSelector (.ksel (ksel s)) (driveT s.em.crc s) = crcBitStep s

/-- R99. Eight consecutive bit steps, `e_bit` = 0 to 7, process one byte: XOR in, then eight shifts. -/
def Obligations.EightBitStepsProcessOneByte : Prop :=
  ∀ s : State, s.em.bit = 0 → ∃ t,
    execAll [.eCrcStep, .eCrcStep, .eCrcStep, .eCrcStep, .eCrcStep, .eCrcStep, .eCrcStep, .eCrcNextByte] s = .next t
    ∧ t.em = { s.em with crc := crcByte s.em.crc (memRead s.q.headEntry.bytes s.em.idx.toNat), bit := 0, idx := s.em.idx + 1 }
    ∧ t.q = s.q ∧ t.col = s.col ∧ t.uart = s.uart ∧ t.record = s.record ∧ t.flags = s.flags ∧ t.cfg = s.cfg

/-- R102. CRC16 of nothing is 0xFFFF; the residue of a sequence with its CRC, low byte first, is 0; and the table form. -/
def Obligations.CrcResidueAndTableForm : Prop :=
  crc16 [] = 0xFFFF
  ∧ (∀ p : Frame, crc16 (p ++ [(crc16 p).setWidth 8, ((crc16 p) >>> 8).setWidth 8]) = 0)
  ∧ (∀ (c : BitVec 16) (b : Byte), crcByte c b = (c >>> 8) ^^^ crcTable ((c ^^^ b.setWidth 16).setWidth 8))
  ∧ crcTable 0x01 = 0xC0C1 ∧ crcTable 0x80 = 0xA001 ∧ crcTable 0xFF = 0x4040

/-! ## The validator -/

/-- R104 to R107, R54 (pseudocode and selector). What each classification writes, and which one VSEL selects: length, then CRC, then `f[1] > 0x80`. -/
def Obligations.ValidatorOperationsClassify : Prop :=
  ∀ s : State,
    exec .vShortFrame s = .next { s with record := { s.record with status := .shortFrame, slave := 0, func := 0, exc := 0 } }
    ∧ exec .vBadCrc s = .next { s with record := { s.record with status := .badCrc, slave := 0, func := 0, exc := 0 } }
    ∧ exec .vOk s = .next { s with record := { s.record with
        status := .ok, slave := memRead s.q.headEntry.bytes 0, func := memRead s.q.headEntry.bytes 1, exc := 0 } }
    ∧ exec .vException s = .next { s with record := { s.record with
        status := .exception, slave := memRead s.q.headEntry.bytes 0, func := memRead s.q.headEntry.bytes 1,
        exc := memRead s.q.headEntry.bytes 2 } }
    ∧ (let n := s.q.headEntry.len.toNat
       let f := headFrame s
       let rx := (f.getD (n - 2) 0).setWidth 16 ||| ((f.getD (n - 1) 0).setWidth 16 <<< 8)
       decode (.vsel (vsel s)) = .ok [
        if n < 5 then .vShortFrame else if rx ≠ s.em.crc then .vBadCrc
        else if 0x80 < (memRead s.q.headEntry.bytes 1).toNat then .vException else .vOk])

/-- R109. The source's testable properties of VALIDATE, (a) to (e); for (a), a short frame's record is the same whatever CRC is given. -/
def Obligations.ValidateTestableProperties : Prop :=
  ∀ (f : Frame) (ts : BitVec 64),
    let r := validate f ts
    let received := (f.getD (f.length - 2) 0).setWidth 16 ||| ((f.getD (f.length - 1) 0).setWidth 16 <<< 8)
    let good := received = crc16 (f.take (f.length - 2))
    (f.length < 5 → r.status = .shortFrame ∧ r.slave = 0 ∧ ∀ c, validateWith c f ts = r)
    ∧ (5 ≤ f.length → good → (f.getD 1 0).toNat ≤ 0x80 → r.status = .ok ∧ r.slave = f.getD 0 0)
    ∧ (5 ≤ f.length → good → 0x80 < (f.getD 1 0).toNat → r.status = .exception ∧ r.exc = f.getD 2 0)
    ∧ (5 ≤ f.length → ¬ good → r.status = .badCrc)
    ∧ (r.slave ≠ 0 → r.status = .ok ∨ r.status = .exception) ∧ (r.exc ≠ 0 → r.status = .exception)

/-- R127, R103. E_CLASS selects E_CLASSIFY, whatever else holds. On a head frame: the record is VALIDATE of the frame with the CRC that
stands in `e_crc`, the line is its LINE, and E_LINE begins; nothing else of the registers changes. A time above TS_MAX is refused. -/
def Obligations.ClassifyFormsRecordAndLine : Prop :=
  (∀ s : State, s.em.state = .classify → decode (.esel (esel s)) = .ok [.eClassify])
  ∧ ∀ s : State,
    (s.q.headEntry.ts.toNat ≤ 253402300799999 → ∃ t, exec .eClassify s = .next t
      ∧ t.record = validateWith s.em.crc (headFrame s) s.q.headEntry.ts
      ∧ ((5 ≤ s.q.headEntry.len.toNat → s.em.crc = crc16 (payload (headFrame s))) →
          t.record = validate (headFrame s) s.q.headEntry.ts)
      ∧ t.em = { s.em with
          state := .line
          lidx := 0
          line := lineText t.record.status t.record.slave t.record.ts (headFrame s) }
      ∧ t.q = s.q ∧ t.col = s.col ∧ t.uart = s.uart ∧ t.flags = s.flags ∧ t.cfg = s.cfg ∧ t.pins = s.pins
      ∧ t.faults = s.faults ∧ t.sig.push = s.sig.push ∧ t.sig.pop = s.sig.pop)
    ∧ (253402300799999 < s.q.headEntry.ts.toNat → exec .eClassify s = .refused (.timestampOutOfRange s.q.headEntry.ts))

/-! ## The formatter -/

/-- R110, R112, R113. HEX_BYTE, STATUS_TOKEN and DEC_U8 complete on every operand and drive their text: two upper-case digits; the token of the
status; the decimal numeral without leading zeros. -/
def Obligations.ByteTextsAreDriven : Prop :=
  ∀ s : State,
    (∀ b : Byte, exec (.hexByte b) s = .next { s with sig := { s.sig with fmt := { s.sig.fmt with
        hexByte := [(ascii "0123456789ABCDEF".toList).getD (b.toNat / 16) 0, (ascii "0123456789ABCDEF".toList).getD (b.toNat % 16) 0] } } })
    ∧ (∀ st : Status, exec (.statusToken st) s = .next { s with sig := { s.sig with fmt := { s.sig.fmt with
        token := ascii (match st with
          | .ok => "NO".toList | .badCrc => "BAD_CRC".toList
          | .shortFrame => "SHORT_FRAME".toList | .exception => "EXCEPTION".toList) } } })
    ∧ (∀ v : Byte, ∃ text : Text, exec (.decU8 v) s = .next { s with sig := { s.sig with fmt := { s.sig.fmt with dec := text } } }
        ∧ text.foldl (fun n c => 10 * n + (c.toNat - 0x30)) 0 = v.toNat
        ∧ (∀ c ∈ text, 0x30 ≤ c.toNat ∧ c.toNat ≤ 0x39)
        ∧ text.length = if v.toNat < 10 then 1 else if v.toNat < 100 then 2 else 3)

/-- R111. HEX_FRAME: 3n - 1 characters; byte i's two digits stand at 3i and 3i + 1, and a `-` between two bytes. -/
def Obligations.HexFrameIsDashJoined : Prop :=
  ∀ (s : State) (f : Frame), ∃ text : Text,
    exec (.hexFrame f) s = .next { s with sig := { s.sig with fmt := { s.sig.fmt with hexFrame := text } } }
    ∧ text.length = 3 * f.length - 1
    ∧ (∀ i (h : i < f.length), [text.getD (3 * i) 0, text.getD (3 * i + 1) 0] = hexByteText f[i])
    ∧ (∀ i, i + 1 < f.length → text.getD (3 * i + 2) 0 = 0x2D)

/-- R114. CIVIL_FROM_DAYS is the proleptic Gregorian calendar: day 0 is 1970-01-01, and each next day is the next date, with leap years every
4 years, except every 100, except every 400; every day count, before 1970 too, gives a month of the year and a day of that month. -/
def Obligations.CivilFromDaysIsGregorian : Prop :=
  (∀ (s : State) (z : Int), exec (.civilFromDays z) s = .next { s with sig := { s.sig with fmt := { s.sig.fmt with civil := civilFromDays z } } })
  ∧ civilFromDays 0 = (1970, 1, 1)
  ∧ ∀ z : Int,
      let (y, m, d) := civilFromDays z
      let leap := y % 4 = 0 ∧ (y % 100 ≠ 0 ∨ y % 400 = 0)
      let days : Int := if m = 2 then (if leap then 29 else 28) else if m = 4 ∨ m = 6 ∨ m = 9 ∨ m = 11 then 30 else 31
      1 ≤ m ∧ m ≤ 12 ∧ 1 ≤ d ∧ d ≤ days
      ∧ civilFromDays (z + 1) = if d < days then (y, m, d + 1) else if m < 12 then (y, m + 1, 1) else (y + 1, 1, 1)

/-- R115. TIMESTAMP completes exactly within TS_MAX, with 23 characters: the date's and the time's digits with their separators. -/
def Obligations.TimestampIsIsoText : Prop :=
  ∀ (s : State) (ts : BitVec 64),
    (ts.toNat ≤ 253402300799999 → ∃ t text, exec (.timestamp ts) s = .next t
      ∧ t = { s with sig := { s.sig with fmt := { s.sig.fmt with
                civil := civilFromDays ((ts.toNat / 86400000 : Nat) : Int), stamp := text } } }
      ∧ text.length = 23
      ∧ (let num (i k : Nat) := ((text.drop i).take k).foldl (fun n c => 10 * n + (c.toNat - 0x30)) 0
         let rem := ts.toNat % 86400000
         ((num 0 4 : Nat) : Int) = (civilFromDays ((ts.toNat / 86400000 : Nat) : Int)).1
         ∧ ((num 5 2 : Nat) : Int) = (civilFromDays ((ts.toNat / 86400000 : Nat) : Int)).2.1
         ∧ ((num 8 2 : Nat) : Int) = (civilFromDays ((ts.toNat / 86400000 : Nat) : Int)).2.2
         ∧ num 11 2 = rem / 3600000 ∧ num 14 2 = rem / 60000 % 60 ∧ num 17 2 = rem / 1000 % 60 ∧ num 20 3 = rem % 1000)
      ∧ (∀ i ∈ [0, 1, 2, 3, 5, 6, 8, 9, 11, 12, 14, 15, 17, 18, 20, 21, 22],
          0x30 ≤ (text.getD i 0).toNat ∧ (text.getD i 0).toNat ≤ 0x39)
      ∧ [text.getD 4 0, text.getD 7 0, text.getD 10 0, text.getD 13 0, text.getD 16 0, text.getD 19 0]
          = ascii ['-', '-', 'T', ':', ':', '.'])
    ∧ (253402300799999 < ts.toNat → exec (.timestamp ts) s = .refused (.timestampOutOfRange ts))

/-- R116. LINE completes within TS_MAX with the four fields in their order and one LF at the end, for every status; every other character is
within 0x20..0x7E. -/
def Obligations.LineHasFourFields : Prop :=
  ∀ (s : State) (st : Status) (slave : Byte) (ts : BitVec 64) (f : Frame), ts.toNat ≤ 253402300799999 →
    ∃ t, exec (.line st slave ts f) s = .next t
      ∧ t = { s with sig := { s.sig with fmt := t.sig.fmt } }
      ∧ t.sig.fmt.line = ascii "DATE=".toList ++ timestampText ts ++ ascii ";ERR=".toList ++ statusTokenText st
          ++ ascii ";FRAME=".toList ++ hexFrameText f ++ ascii ";SLAVE=".toList ++ decU8Text slave ++ [0x0A]
      ∧ ∀ c ∈ t.sig.fmt.line.dropLast, 0x20 ≤ c.toNat ∧ c.toNat ≤ 0x7E

/-- R117. The length of a line, and its range for the records VALIDATE makes of 1..256 bytes: 59 + 3n for a short frame, from 50 + 3n for a
longer one, and 827 at most. -/
def Obligations.LineLengthsAreBounded : Prop :=
  (∀ (st : Status) (slave : Byte) (ts : BitVec 64) (f : Frame), 1 ≤ f.length →
    (lineText st slave ts f).length = 48 + (statusTokenText st).length + (3 * f.length - 1) + (decU8Text slave).length)
  ∧ (∀ (f : Frame) (ts : BitVec 64), 1 ≤ f.length → f.length ≤ 256 →
      let r := validate f ts
      let n := (lineText r.status r.slave r.ts f).length
      (f.length < 5 → n = 59 + 3 * f.length) ∧ (5 ≤ f.length → 50 + 3 * f.length ≤ n) ∧ n ≤ 827)

/-! ## The emitter -/

/-- R121, R122, R123. The emitter's idle operations: wait; a short frame goes straight to E_CLASS with `e_crc` untouched; a longer one begins the CRC. -/
def Obligations.EmitterDequeues : Prop :=
  (∀ s : State, s.em.state = .idle →
    (s.q.count = 0 → decode (.esel (esel s)) = .ok [.eIdleWait])
    ∧ (s.q.count ≠ 0 → s.q.headEntry.len.toNat < 5 → decode (.esel (esel s)) = .ok [.eDequeueShort])
    ∧ (s.q.count ≠ 0 → 5 ≤ s.q.headEntry.len.toNat → decode (.esel (esel s)) = .ok [.eDequeueCrc]))
  ∧ (∀ s : State,
      exec .eIdleWait s = .next s
      ∧ exec .eDequeueShort s = .next { s with em := { s.em with state := .classify } }
      ∧ exec .eDequeueCrc s = .next { s with em := { s.em with crc := 0xFFFF, idx := 0, bit := 0, state := .crc } })

/-- R124, R125, R126, R99 (selectors and pseudocode). The three CRC cycles: one bit step each, then the next bit, the next byte, or E_CLASS. -/
def Obligations.EmitterCrcCyclesStepOneBit : Prop :=
  (∀ s : State, s.em.state = .crc →
    (s.em.bit ≠ 7 → decode (.esel (esel s)) = .ok [.eCrcStep])
    ∧ (s.em.bit = 7 → s.em.idx.toNat + 3 ≠ s.q.headEntry.len.toNat → decode (.esel (esel s)) = .ok [.eCrcNextByte])
    ∧ (s.em.bit = 7 → s.em.idx.toNat + 3 = s.q.headEntry.len.toNat → decode (.esel (esel s)) = .ok [.eCrcDone]))
  ∧ (∀ s : State,
      let t := if s.em.bit = 0 then s.em.crc ^^^ (memRead s.q.headEntry.bytes s.em.idx.toNat).setWidth 16 else s.em.crc
      let crc := if t.getLsbD 0 then (t >>> 1) ^^^ 0xA001 else t >>> 1
      exec .eCrcStep s = .next { s with em := { s.em with crc := crc, bit := s.em.bit + 1 }, sig := { s.sig with t := t } }
      ∧ exec .eCrcNextByte s = .next { s with
          em := { s.em with crc := crc, bit := 0, idx := s.em.idx + 1 }, sig := { s.sig with t := t } }
      ∧ exec .eCrcDone s = .next { s with
          em := { s.em with crc := crc, bit := 0, state := .classify }, sig := { s.sig with t := t } })

/-- R128, R129 (selectors and pseudocode), R119. A line's character goes out and the index advances; the last one pops the frame and ends the record. -/
def Obligations.EmitterOutputsTheLine : Prop :=
  (∀ s : State, s.em.state = .line →
    (s.em.lidx.toNat + 1 ≠ s.em.line.length → decode (.esel (esel s)) = .ok [.eLineChar] ∧ popRequest s = false)
    ∧ (s.em.lidx.toNat + 1 = s.em.line.length → decode (.esel (esel s)) = .ok [.eLineLast] ∧ popRequest s = true))
  ∧ (∀ (s : State) (c : Byte), s.em.line[s.em.lidx.toNat]? = some c →
      let out := { s.sig.out with
        lineValid := true
        lineChar := c
        lineLast := decide (s.em.lidx.toNat + 1 = s.em.line.length)
        recValid := decide (s.em.lidx = 0) }
      exec .eLineChar s = .next { s with em := { s.em with lidx := s.em.lidx + 1 }, sig := { s.sig with out := out } }
      ∧ exec .eLineLast s = .next { s with em := { s.em with state := .idle }, sig := { s.sig with out := out, pop := true } })

/-- R118. The outputs of a cycle are the given functions of the start-of-cycle state, and all 0 in a cycle with `rst` = 1. (In E_LINE with
`e_lidx` past the line, which no run reaches, nothing is said.) -/
def Obligations.OutputsAreMoore : Prop :=
  ∀ s t : State, step s = .next t →
    (s.pins.rst = true → t.sig.out = Outputs.zero)
    ∧ (s.pins.rst = false → ∀ (valid last : Bool) (ch : Byte),
        valid = decide (s.em.state = .line) → last = (valid && decide (s.em.lidx.toNat + 1 = s.em.line.length)) →
        (valid = false → ch = 0) → (valid = true → s.em.line[s.em.lidx.toNat]? = some ch) →
        t.sig.out =
          { lineValid := valid
            lineChar := ch
            lineLast := last
            recValid := valid && decide (s.em.lidx = 0)
            recStatus := s.record.status.code
            recSlave := s.record.slave
            recFunc := s.record.func
            recExc := s.record.exc
            recLen := s.record.len
            recTs := s.record.ts
            stsPerr := s.flags.perr
            stsFerr := s.flags.ferr
            stsOverrun := s.flags.overrun
            stsFatal := s.flags.fatal
            halted := s.flags.fatal && decide (s.q.count = 0) && decide (s.em.state = .idle) })

/-- R22. The record registers are written only in E_CLASS (and by a reset). -/
def Obligations.RecordWrittenOnlyInClassify : Prop :=
  ∀ s t : State, s.pins.rst = false → s.em.state ≠ .classify → step s = .next t → t.record = s.record

/-! ## The queue -/

/-- R120. QUEUE_COMMIT: the pop, then the push, which goes to the tail entry or, with the queue full, is dropped with the sticky flag and the
fault record (R136). Bytes of the entry above the frame, and the other entry, read as before. -/
def Obligations.QueueCommitPopsThenPushes : Prop :=
  ∀ s : State,
    let h1 := if s.sig.pop then s.q.head + 1 else s.q.head
    let c1 := if s.sig.pop then s.q.count - 1 else s.q.count
    (s.sig.push = none → exec .queueCommit s = .next { s with q := { s.q with head := h1, count := c1 } })
    ∧ (∀ p, s.sig.push = some p → p.bytes.length ≤ 256 →
        (2 ≤ c1.toNat → exec .queueCommit s = .next { s with
            q := { s.q with head := h1, count := c1 }
            flags := { s.flags with overrun := true }
            faults := s.faults ++ [.overrun (BitVec.ofNat 9 p.bytes.length) p.ts] })
        ∧ (c1.toNat < 2 → s.q.e0.bytes.wf = true → s.q.e1.bytes.wf = true →
            ∃ t k, exec .queueCommit s = .next { s with q := t }
              ∧ k = BitVec.ofNat 1 (h1.toNat + c1.toNat)
              ∧ t.head = h1 ∧ t.count = c1 + 1
              ∧ (t.entry k).len.toNat = p.bytes.length ∧ (t.entry k).ts = p.ts
              ∧ (∀ i, memRead (t.entry k).bytes i = if h : i < p.bytes.length then p.bytes[i] else memRead (s.q.entry k).bytes i)
              ∧ t.entry (k + 1) = s.q.entry (k + 1)))

/-- R120 (a), (b). While the emitter holds the head entry, no commit without a pop writes it; and a pop and a push in the same cycle with two
frames queued both succeed. -/
def Obligations.PushAndPopShareTheQueueSafely : Prop :=
  (∀ s t : State, 1 ≤ s.q.count.toNat → s.sig.pop = false → exec .queueCommit s = .next t →
    t.q.head = s.q.head ∧ t.q.headEntry = s.q.headEntry)
  ∧ (∀ (s : State) (p : Push), s.q.count = 2 → s.sig.pop = true → s.sig.push = some p →
    ∃ t, exec .queueCommit s = .next t ∧ t.q.count = 2 ∧ t.q.head = s.q.head + 1
      ∧ t.flags = s.flags ∧ t.faults = s.faults ∧ t.q.headEntry = s.q.entry (s.q.head + 1))

/-! ## The fatal stop and the flags -/

/-- R134 (the signals and the flag). FATAL_ENTRY: `fatal_req`, `stop`, and `sts_fatal` set at the first `src_err`; nothing else. -/
def Obligations.FatalEntrySetsStop : Prop :=
  ∀ s : State, exec .fatalEntry s = .next { s with
    sig := { s.sig with
      fatalReq := s.pins.srcErr && !s.flags.fatal
      stop := s.pins.srcErr || s.flags.fatal }
    flags := { s.flags with fatal := s.flags.fatal || s.pins.srcErr } }

/-- R134, R135, R138 (2). From the first cycle with `src_err` on, until a reset: receiver and collector are halted, no strobe and no close happen,
the partial frame is gone, and `sts_fatal` stays. -/
def Obligations.FatalStopHoldsUntilReset : Prop :=
  ∀ s t : State, s.pins.rst = false → (s.pins.srcErr = true ∨ s.flags.fatal = true) → step s = .next t →
    t.flags.fatal = true ∧ t.uart.state = .halt ∧ t.col.state = .halt ∧ t.col.len = 0
    ∧ t.sig.rx.strobe = false ∧ t.sig.push = none ∧ t.col.buf = s.col.buf ∧ t.flags.overrun = s.flags.overrun

/-- R23, R137. The flags are sticky: with `rst` = 0 no step clears one, and `sts_fatal` is set only by `src_err`. The fault record is sticky:
every step keeps its entries, so a faulted state never becomes a valid final one (in a reset cycle this is the model's choice, log entry 7). -/
def Obligations.FlagsAreSticky : Prop :=
  (∀ s t : State, step s = .next t → (∃ fs, t.faults = s.faults ++ fs) ∧ (¬ ValidFinal s → ¬ ValidFinal t))
  ∧ ∀ s t : State, s.pins.rst = false → step s = .next t →
    (s.flags.perr = true → t.flags.perr = true) ∧ (s.flags.ferr = true → t.flags.ferr = true)
    ∧ (s.flags.overrun = true → t.flags.overrun = true) ∧ t.flags.fatal = (s.flags.fatal || s.pins.srcErr)

/-- R145. Once `halted` = 1 the outputs are constant until a reset. -/
def Obligations.HaltedOutputsStayConstant : Prop :=
  ∀ s t : State, s.pins.rst = false → (outputs s).halted = true → step s = .next t → t.pins.rst = false →
    outputs t = outputs s

/-! ## Invariants -/

/-- R28. Every step keeps the byte arrays in canonical form, from every state that has them so. -/
def Obligations.StepKeepsFramesCanonical : Prop :=
  ∀ s t : State, FramesCanonical s → step s = .next t → FramesCanonical t

/-- Every step keeps the invariant of the runs: the counters within their bounds (R18, R19, R25), the queue's entries (R20), TMO (R16), and the
emitter's registers: the CRC of what has been processed (R100), and in E_LINE the record and the line of the head frame (R103, R116). -/
def Obligations.StepKeepsTheRunInvariant : Prop :=
  ∀ s t : State, RunInv s → step s = .next t → RunInv t

/-- The state after a reset cycle with any configuration meets the invariant, `State.reset` among them. -/
def Obligations.ResetMeetsTheRunInvariant : Prop :=
  RunInv State.reset ∧ ∀ s t : State, s.pins.rst = true → step s = .next t → RunInv t

/-- R137, R148. The faults and refusals are the listed ones. A fault never stops the machine: no step and no operation, in any state, has one
as its outcome, and a step from the invariant records no other than an overrun (`Unreachable` cannot occur, R57). A step is refused only for
an illegal configuration, for a record's time above TS_MAX in E_CLASS, or before the first reset. -/
def Obligations.FaultsAndRefusalsAreTheListedOnes : Prop :=
  (∀ (s : State) (r : Fault), step s ≠ .fault r)
  ∧ (∀ (i : Instr) (s : State) (r : Fault), exec i s ≠ .fault r)
  ∧ (∀ s t : State, RunInv s → step s = .next t → ∃ fs, t.faults = s.faults ++ fs ∧ ∀ r ∈ fs, ∃ n ts, r = .overrun n ts)
  ∧ (∀ (s : State) (r : Refusal), step s = .refused r → s.pins.rst = false ∧
    ((r = .illegalConfiguration ∧
        (s.cfg.baudDiv.toNat < 4 ∨ s.cfg.parity ∈ [5, 6, 7] ∨ s.cfg.stop = 3 ∨ (s.cfg.tmoOvrEn = true ∧ s.cfg.tmoOvr = 0)))
      ∨ (r = .timestampOutOfRange s.q.headEntry.ts ∧ s.em.state = .classify ∧ 253402300799999 < s.q.headEntry.ts.toNat)
      ∨ (r = .noReset ∧ s.resetSeen = false)))

/-- R17, R115, R137, R148. Every cycle goes on: once a reset has happened, with a legal configuration, a step from every state answers a next
state, unless a record's time is above TS_MAX. -/
def Obligations.LegalRunsGoOn : Prop :=
  ∀ s : State, (s.pins.rst = true ∨ (s.resetSeen = true ∧ cfgLegal s.cfg = true)) →
    (s.em.state = .classify → s.q.headEntry.ts.toNat ≤ 253402300799999) → ∃ t, step s = .next t

/-- R118, R127, R128, R145. In a run, each `line_char` of an E_LINE cycle is the character at `e_lidx` of the LINE of the record that VALIDATE
makes of the frame at the queue's head; and the cycles from the first character on, if no reset comes, are observed as exactly that line. -/
def Obligations.OutputCharactersAreTheRecordsLine : Prop :=
  (∀ s : State, RunInv s → s.pins.rst = false → s.em.state = .line →
    let r := validate (headFrame s) s.q.headEntry.ts
    (lineText r.status r.slave r.ts (headFrame s))[s.em.lidx.toNat]? = some (outputs s).lineChar
    ∧ (outputs s).recStatus = r.status.code ∧ (outputs s).recSlave = r.slave ∧ (outputs s).recFunc = r.func
    ∧ (outputs s).recExc = r.exc ∧ (outputs s).recLen = r.len ∧ (outputs s).recTs = r.ts)
  ∧ (∀ s : State, RunInv s → cfgLegal s.cfg = true → s.em.state = .line → s.em.lidx = 0 →
    s.pins.rst = false → (∀ i ∈ s.script, i.rst = false) →
    let r := validate (headFrame s) s.q.headEntry.ts
    let line := lineText r.status r.slave r.ts (headFrame s)
    ∃ o, observe line.length s = .next o ∧ o.outputs.length = line.length ∧ linesOf o.outputs = [line])
end

