-- ==== Sys2Proof/Laws/Calendar.lean ====
section
/-! SUPPORT. The year inside a 400-year era (44_record_formatter.md R114). -/

namespace Sys2Proof.Machine

/-- The day of an era on which year `y` begins (years from March, `0 <= y <= 400`). -/
def yearStart (y : Int) : Int := 365 * y + y / 4 - y / 100

/-- The year that R114 computes from a day of an era is the one whose days contain it. -/
theorem year_of_day {doe : Int} (h0 : 0 ≤ doe) (h1 : doe < 146097) :
    ∃ y, (doe - doe / 1460 + doe / 36524 - doe / 146096) / 365 = y
      ∧ 0 ≤ y ∧ y ≤ 399 ∧ yearStart y ≤ doe ∧ (doe < yearStart (y + 1) ∨ y = 399) := by
  obtain ⟨d, hd⟩ : ∃ d, doe / 36524 = d := ⟨_, rfl⟩
  obtain ⟨e, he⟩ : ∃ e, doe / 146096 = e := ⟨_, rfl⟩
  obtain ⟨c, hc⟩ : ∃ c, doe / 1460 = c := ⟨_, rfl⟩
  obtain ⟨y, hy⟩ : ∃ y, (doe - doe / 1460 + doe / 36524 - doe / 146096) / 365 = y := ⟨_, rfl⟩
  obtain ⟨f, hf⟩ : ∃ f, y / 4 = f := ⟨_, rfl⟩
  obtain ⟨g, hg⟩ : ∃ g, y / 100 = g := ⟨_, rfl⟩
  refine ⟨y, hy, ?_⟩
  rw [hc, hd, he] at hy
  simp only [yearStart, hf, hg]
  have hd0 : 0 ≤ d := by omega
  have hd4 : d ≤ 4 := by omega
  have he' : e = 0 ∨ e = 1 := by omega
  have hc' : c = f ∨ c = f + 1 := by omega
  have hr : y = 4 * f ∨ y = 4 * f + 1 ∨ y = 4 * f + 2 ∨ y = 4 * f + 3 := by omega
  have hg' : g = d - e ∨ g = d - e - 1 := by interval_cases d <;> omega
  rcases hc' with rfl | rfl <;> rcases hr with h | h | h | h <;> rcases he' with rfl | rfl <;> interval_cases d <;> omega

end Sys2Proof.Machine
end

