-- ==== Sys2Proof/Laws/Memory.lean ====
section
/-! SUPPORT. The laws of frame storage (20_memory.md R28 to R31): a write reads back, leaves every other index alone, and keeps the
canonical form. -/

namespace Sys2Proof.Machine
/-- Below the first listed index, and past the last, nothing is listed. -/
theorem memRead_below {lo : Nat} {m : Memory} (h : memWfFrom lo m = true) {i : Nat} (hi : i < lo) :
    memRead m i = Config.unwrittenByte := by
  induction m generalizing lo with
  | nil => rfl
  | cons c m ih =>
    obtain ⟨a, b⟩ := c
    simp only [memWfFrom, Bool.and_eq_true, decide_eq_true_eq] at h
    have : i ≠ a := by omega
    simp only [memRead, this, if_false]
    exact ih h.2 (by omega)

theorem memWfFrom_mono {lo lo' : Nat} {m : Memory} (h : memWfFrom lo m = true) (hl : lo' ≤ lo) :
    memWfFrom lo' m = true := by
  cases m with
  | nil => rfl
  | cons c m =>
    simp only [memWfFrom, Bool.and_eq_true, decide_eq_true_eq] at h ⊢
    exact ⟨⟨⟨by omega, h.1.1.2⟩, h.1.2⟩, h.2⟩

theorem memWfFrom_memWrite {lo : Nat} {m : Memory} (h : memWfFrom lo m = true) {i : Nat} (hl : lo ≤ i)
    (hi : i < Config.chunk) (b : Byte) : memWfFrom lo (memWrite m i b) = true := by
  induction m generalizing lo with
  | nil =>
    by_cases hb : b = Config.unwrittenByte <;> simp [memWrite, memWfFrom, hb, hl, hi]
  | cons c m ih =>
    obtain ⟨a, d⟩ := c
    have hc := h
    simp only [memWfFrom, Bool.and_eq_true, decide_eq_true_eq] at h
    obtain ⟨⟨⟨h1, h2⟩, h3⟩, h4⟩ := h
    rcases Nat.lt_trichotomy i a with hia | hia | hia
    · by_cases hb : b = Config.unwrittenByte
      · simpa only [memWrite, hia, hb, if_true] using hc
      · simp only [memWrite, hia, hb, if_true, if_false, memWfFrom, Bool.and_eq_true, decide_eq_true_eq]
        exact ⟨⟨⟨hl, hi⟩, hb⟩, ⟨⟨hia, h2⟩, h3⟩, h4⟩
    · subst hia
      by_cases hb : b = Config.unwrittenByte
      · simp only [memWrite, Nat.lt_irrefl, hb, if_true, if_false]
        exact memWfFrom_mono h4 (by omega)
      · simp only [memWrite, Nat.lt_irrefl, hb, if_true, if_false, memWfFrom, Bool.and_eq_true, decide_eq_true_eq]
        exact ⟨⟨⟨hl, hi⟩, hb⟩, h4⟩
    · have hn : ¬ i < a := by omega
      have hne : i ≠ a := by omega
      simp only [memWrite, hn, hne, if_false, memWfFrom, Bool.and_eq_true, decide_eq_true_eq]
      exact ⟨⟨⟨h1, h2⟩, h3⟩, ih h4 (by omega)⟩

theorem memRead_memWrite {lo : Nat} {m : Memory} (h : memWfFrom lo m = true) (i : Nat) (b : Byte) (j : Nat) :
    memRead (memWrite m i b) j = if j = i then b else memRead m j := by
  induction m generalizing lo with
  | nil =>
    by_cases hb : b = Config.unwrittenByte <;> by_cases hj : j = i <;> simp [memWrite, memRead, hb, hj]
  | cons c m ih =>
    obtain ⟨a, d⟩ := c
    simp only [memWfFrom, Bool.and_eq_true, decide_eq_true_eq] at h
    obtain ⟨-, h4⟩ := h
    rcases Nat.lt_trichotomy i a with hia | hia | hia
    · by_cases hb : b = Config.unwrittenByte
      · simp only [memWrite, hia, hb, if_true]
        by_cases hj : j = i
        · subst hj
          have hja : j ≠ a := by omega
          simp only [memRead, hja, if_true, if_false]
          exact memRead_below h4 (by omega)
        · simp only [hj, if_false]
      · simp only [memWrite, hia, hb, if_true, if_false, memRead]
    · subst hia
      by_cases hb : b = Config.unwrittenByte
      · simp only [memWrite, Nat.lt_irrefl, hb, if_true, if_false, memRead]
        by_cases hj : j = i
        · subst hj
          simp only [if_true]
          exact memRead_below h4 (by omega)
        · simp only [hj, if_false]
      · simp only [memWrite, Nat.lt_irrefl, hb, if_true, if_false, memRead]
        by_cases hj : j = i <;> simp only [hj, if_true, if_false]
    · have hn : ¬ i < a := by omega
      have hne : i ≠ a := by omega
      simp only [memWrite, hn, hne, if_false, memRead, ih h4]
      by_cases hj : j = a
      · have : j ≠ i := by omega
        simp only [hj, if_true, Ne.symm hne, if_false]
      · simp only [hj, if_false]

theorem Memory.wf_memWrite {m : Memory} (h : m.wf = true) {i : Nat} (hi : i < Config.chunk) (b : Byte) :
    (Memory.wf (memWrite m i b)) = true := memWfFrom_memWrite h (Nat.zero_le i) hi b

/-- Every index is within the array. -/
theorem byteIndex_lt (i : Nat) : byteIndex i < Config.chunk := Nat.mod_lt i (by decide)

/-- An index within the array is itself. -/
theorem byteIndex_of_lt {i : Nat} (h : i < Config.chunk) : byteIndex i = i := Nat.mod_eq_of_lt h

/-- The index of an 8-bit register is its value. -/
@[simp] theorem byteIndex_toNat (x : BitVec 8) : byteIndex x.toNat = x.toNat := byteIndex_of_lt x.isLt

theorem Memory.wf_memWriteAll {m : Memory} (h : m.wf = true) (i : Nat) (bs : Frame) : (Memory.wf (memWriteAll m i bs)) = true := by
  induction bs generalizing m i with
  | nil => exact h
  | cons b bs ih => exact ih (Memory.wf_memWrite h (byteIndex_lt i) b) (i + 1)

/-- A copy that stays within the array writes its bytes at the indices from `i` on and leaves every other index alone. -/
theorem memRead_memWriteAll {m : Memory} (h : m.wf = true) {i : Nat} {bs : Frame} (hi : i + bs.length ≤ Config.chunk) (j : Nat) :
    memRead (memWriteAll m i bs) j = if i ≤ j ∧ j < i + bs.length then bs.getD (j - i) 0 else memRead m j := by
  induction bs generalizing m i with
  | nil =>
    have : ¬ (i ≤ j ∧ j < i + 0) := by omega
    simp only [memWriteAll, List.length_nil, this, if_false]
  | cons b bs ih =>
    simp only [List.length_cons] at hi
    rw [memWriteAll, byteIndex_of_lt (by omega), ih (Memory.wf_memWrite h (by omega) b) (by omega), memRead_memWrite h]
    simp only [List.length_cons]
    by_cases h0 : j = i
    · subst h0
      have h1 : ¬ (j + 1 ≤ j ∧ j < j + 1 + bs.length) := by omega
      have h2 : j ≤ j ∧ j < j + (bs.length + 1) := by omega
      simp only [h1, if_false, if_true, h2, Nat.sub_self, List.getD_cons_zero, true_and]
    · by_cases h1 : i + 1 ≤ j ∧ j < i + 1 + bs.length
      · have h2 : i ≤ j ∧ j < i + (bs.length + 1) := by omega
        have h3 : j - i = (j - (i + 1)) + 1 := by omega
        simp only [h1, h2, and_self, if_true, h3, List.getD_cons_succ]
      · have h2 : ¬ (i ≤ j ∧ j < i + (bs.length + 1)) := by omega
        simp only [h1, h2, if_false, h0]

@[simp] theorem memBytes_length (m : Memory) (n : Nat) : (memBytes m n).length = n := by simp [memBytes]

theorem memBytes_getD (m : Memory) {n i : Nat} (h : i < n) : (memBytes m n).getD i 0 = memRead m (byteIndex i) := by
  simp [memBytes, h]

/-- What a copy of a whole frame to index 0 reads back as. -/
theorem memBytes_memWriteAll {m : Memory} (h : m.wf = true) {bs : Frame} (hb : bs.length ≤ Config.chunk) :
    memBytes (memWriteAll m 0 bs) bs.length = bs := by
  apply List.ext_getElem (by simp)
  intro j h1 h2
  have h3 : (0 : Nat) ≤ j ∧ j < 0 + bs.length := by omega
  simp only [memBytes, List.getElem_map, List.getElem_range]
  rw [byteIndex_of_lt (by omega), memRead_memWriteAll h (by omega), if_pos h3]
  simp [h2]
end Sys2Proof.Machine
end

