-- ==== Sys2Proof/Laws/Crc.lean ====
section
/-! SUPPORT. The bit steps of the CRC generator one after another, and the CRC of a longer sequence. -/

namespace Sys2Proof.Machine

/-- One more bit step at the end is one more at the start. -/
theorem crcBits_succ (k : Nat) (t : BitVec 16) : crcBits (k + 1) t = crcBit (crcBits k t) := by
  induction k generalizing t with
  | zero => rfl
  | succ k ih => exact ih (crcBit t)

/-- The bit step is linear over XOR. -/
theorem crcBit_xor (x y : BitVec 16) : crcBit (x ^^^ y) = crcBit x ^^^ crcBit y := by
  simp only [crcBit, BitVec.getLsbD_xor]
  cases hx : x.getLsbD 0 <;> cases hy : y.getLsbD 0 <;>
    (apply BitVec.eq_of_getLsbD_eq
     intro i hi
     simp [Bool.xor_comm, Bool.xor_left_comm])

theorem crcBits_xor (k : Nat) (x y : BitVec 16) : crcBits k (x ^^^ y) = crcBits k x ^^^ crcBits k y := by
  induction k generalizing x y with
  | zero => rfl
  | succ k ih => rw [crcBits, crcBit_xor, ih]; rfl

theorem crc16_concat (p : Frame) (b : Byte) : crc16 (p ++ [b]) = crcByte (crc16 p) b := by
  simp [crc16, List.foldl_append]

/-- The next payload byte of the head frame joins the CRC. -/
theorem crc16_take_succ {s : State} {i : Nat} (h : i < headLen s) :
    crc16 ((headFrame s).take (i + 1)) = crcByte (crc16 ((headFrame s).take i)) (headRead s i) := by
  have hl : i < (headFrame s).length := by simpa [headFrame] using h
  rw [List.take_succ_eq_append_getElem hl, crc16_concat]
  simp [headFrame, memBytes, headRead]

end Sys2Proof.Machine
end

