-- ==== Sys2Proof/Laws/Select.lean ====
section
/-! SUPPORT. Which operation each selector selects, by the conditions it is made of (30_encoding.md R51 to R55): one lemma per engine. -/

namespace Sys2Proof.Machine

/-- R51 read by its conditions: the operation of a receiver cycle. -/
def uartOp (stop : Bool) (st : UState) (hit rxdS last par : Bool) : Option Instr :=
  if stop then some .uStopped
  else
    match st with
    | .idle => some (if rxdS then .uIdleWait else .uStartDetect)
    | .start => some (if hit then (if rxdS then .uStartReject else .uStartConfirm) else .uStartCount)
    | .data =>
      some (if hit then (if last then (if par then .uDataLastPar else .uDataLastNopar) else .uDataSample) else .uDataCount)
    | .parity => some (if hit then .uParSample else .uParCount)
    | .stop => some (if hit then (if rxdS then .uStopSample else .uStopSampleFerr) else .uStopCount)
    | .waitIdle => some (if rxdS then .uWaitRelease else .uWaitLow)
    | .halt => none
    | .reserved => none

/-- R52 read by its conditions: the operation of a collector cycle. -/
def collectorOp (stop : Bool) (st : CState) (strobe hit full : Bool) : Option Instr :=
  if stop then some .cStopped
  else
    match st with
    | .settle => some (if hit then .cSettleDrain else .cSettleWait)
    | .idle => some (if strobe then .cIdleFirstByte else if hit then .cIdleEmptyRead else .cIdleWait)
    | .collect =>
      some (if strobe then (if full then .cColFullClose else .cColAppend) else if hit then .cColSilenceClose else .cColWait)
    | .halt => none

/-- R55 read by its conditions: the operation of an emitter cycle. -/
def emitterOp (st : EState) (qne short bitLast crcLast lineLast : Bool) : Instr :=
  match st with
  | .idle => if qne then (if short then .eDequeueShort else .eDequeueCrc) else .eIdleWait
  | .crc => if bitLast then (if crcLast then .eCrcDone else .eCrcNextByte) else .eCrcStep
  | .classify => .eClassify
  | .line => if lineLast then .eLineLast else .eLineChar

/-- A decoded single operation, or the rejection by name. -/
def decoded (sel : Selector) : Option Instr → Except DecodeError (List Instr)
  | some i => .ok [i]
  | none => .error (.noRow sel.engine sel.word)

theorem usel_cases (stop : Bool) (st : UState) (hit rxdS last par : Bool)
    (w : BitVec 8)
    (hw : w = BitVec.ofBool stop ++ st.code ++ BitVec.ofBool hit ++ BitVec.ofBool rxdS ++ BitVec.ofBool last
      ++ BitVec.ofBool par) :
    decode (.usel w) = decoded (.usel w) (uartOp stop st hit rxdS last par) := by
  subst hw
  cases stop <;> cases st <;> cases hit <;> cases rxdS <;> cases last <;> cases par <;> decide

theorem csel_cases (stop : Bool) (st : CState) (strobe hit full : Bool)
    (w : BitVec 6)
    (hw : w = BitVec.ofBool stop ++ st.code ++ BitVec.ofBool strobe ++ BitVec.ofBool hit ++ BitVec.ofBool full) :
    decode (.csel w) = decoded (.csel w) (collectorOp stop st strobe hit full) := by
  subst hw
  cases stop <;> cases st <;> cases strobe <;> cases hit <;> cases full <;> decide

theorem esel_cases (st : EState) (qne short bitLast crcLast lineLast : Bool) (w : BitVec 7)
    (hw : w = st.code ++ BitVec.ofBool qne ++ BitVec.ofBool short ++ BitVec.ofBool bitLast ++ BitVec.ofBool crcLast
      ++ BitVec.ofBool lineLast) :
    decode (.esel w) = .ok [emitterOp st qne short bitLast crcLast lineLast] := by
  subst hw
  cases st <;> cases qne <;> cases short <;> cases bitLast <;> cases crcLast <;> cases lineLast <;> decide

/-- The receiver's selector of a state (R51, R62). -/
theorem decode_usel (s : State) : decode (.usel (usel s)) =
    decoded (.usel (usel s)) (uartOp s.sig.stop s.uart.state (uHit s) s.sig.rxdS (s.uart.bit == 7) (parEn s.cfg)) :=
  usel_cases _ _ _ _ _ _ _ rfl

/-- The collector's selector of a state (R52, R80). -/
theorem decode_csel (s : State) : decode (.csel (csel s)) =
    decoded (.csel (csel s)) (collectorOp s.sig.stop s.col.state s.sig.rx.strobe (cHit s) (s.col.len == 255)) :=
  csel_cases _ _ _ _ _ _ rfl

/-- The emitter's selector of a state (R55): it always selects one operation (R57 (d)). -/
theorem decode_esel (s : State) : decode (.esel (esel s)) =
    .ok [emitterOp s.em.state (s.q.count != 0) (decide (headLen s < Config.minFrame)) (s.em.bit == 7) (crcLast s)
      (lineLast s.em)] :=
  esel_cases _ _ _ _ _ _ _ rfl

/-- The CRC generator's selector of a state (R53): the byte comes in at the first bit step, then one shift. -/
theorem decode_ksel (s : State) : decode (.ksel (ksel s)) =
    .ok ((if s.em.bit = 0 then [.crcByteIn] else [])
      ++ [if (crcFeed s).getLsbD 0 then .crcShiftXor else .crcShift]) := by
  have h : ∀ first low : Bool, decode (.ksel (BitVec.ofBool first ++ BitVec.ofBool low)) =
      .ok ((if first then [.crcByteIn] else []) ++ [if low then .crcShiftXor else .crcShift]) := by
    intro first low; cases first <;> cases low <;> decide
  simpa [ksel] using h (s.em.bit == 0) ((crcFeed s).getLsbD 0)

/-- The validator's selector of a state (R54): length, then CRC, then the exception test (R103). -/
theorem decode_vsel (s : State) : decode (.vsel (vsel s)) =
    .ok [if headLen s < Config.minFrame then .vShortFrame
      else if headReceivedCrc s ≠ s.em.crc then .vBadCrc
      else if 0x80 < (headRead s 1).toNat then .vException else .vOk] := by
  have h : ∀ long ok exc : Bool, decode (.vsel (BitVec.ofBool long ++ BitVec.ofBool (long && ok) ++ BitVec.ofBool (long && exc))) =
      .ok [if long then (if ok then (if exc then .vException else .vOk) else .vBadCrc) else .vShortFrame] := by
    intro long ok exc; cases long <;> cases ok <;> cases exc <;> decide
  refine (h (decide (Config.minFrame ≤ headLen s)) (headReceivedCrc s == s.em.crc) (decide (0x80 < (headRead s 1).toNat))).trans ?_
  by_cases h1 : headLen s < Config.minFrame
  · have : ¬ Config.minFrame ≤ headLen s := by omega
    simp [h1, this]
  · have : Config.minFrame ≤ headLen s := by omega
    by_cases h2 : headReceivedCrc s = s.em.crc <;> by_cases h3 : 0x80 < (headRead s 1).toNat <;> simp [h1, this, h2, h3]

end Sys2Proof.Machine
end

