-- ==== Sys2Proof/Laws/State.lean ====
section
/-! SUPPORT. One lemma per field of State per named update: what the update does to the field. -/

namespace Sys2Proof.Machine

/-! ## setCfg -/

@[simp] theorem setCfg_cfg (c : Cfg) (s : State) : (s.setCfg c).cfg = c := rfl
@[simp] theorem setCfg_uart (c : Cfg) (s : State) : (s.setCfg c).uart = s.uart := rfl
@[simp] theorem setCfg_col (c : Cfg) (s : State) : (s.setCfg c).col = s.col := rfl
@[simp] theorem setCfg_q (c : Cfg) (s : State) : (s.setCfg c).q = s.q := rfl
@[simp] theorem setCfg_em (c : Cfg) (s : State) : (s.setCfg c).em = s.em := rfl
@[simp] theorem setCfg_record (c : Cfg) (s : State) : (s.setCfg c).record = s.record := rfl
@[simp] theorem setCfg_flags (c : Cfg) (s : State) : (s.setCfg c).flags = s.flags := rfl
@[simp] theorem setCfg_sig (c : Cfg) (s : State) : (s.setCfg c).sig = s.sig := rfl
@[simp] theorem setCfg_pins (c : Cfg) (s : State) : (s.setCfg c).pins = s.pins := rfl
@[simp] theorem setCfg_script (c : Cfg) (s : State) : (s.setCfg c).script = s.script := rfl
@[simp] theorem setCfg_resetSeen (c : Cfg) (s : State) : (s.setCfg c).resetSeen = s.resetSeen := rfl
@[simp] theorem setCfg_faults (c : Cfg) (s : State) : (s.setCfg c).faults = s.faults := rfl

/-! ## setUart -/

@[simp] theorem setUart_cfg (u : Uart) (s : State) : (s.setUart u).cfg = s.cfg := rfl
@[simp] theorem setUart_uart (u : Uart) (s : State) : (s.setUart u).uart = u := rfl
@[simp] theorem setUart_col (u : Uart) (s : State) : (s.setUart u).col = s.col := rfl
@[simp] theorem setUart_q (u : Uart) (s : State) : (s.setUart u).q = s.q := rfl
@[simp] theorem setUart_em (u : Uart) (s : State) : (s.setUart u).em = s.em := rfl
@[simp] theorem setUart_record (u : Uart) (s : State) : (s.setUart u).record = s.record := rfl
@[simp] theorem setUart_flags (u : Uart) (s : State) : (s.setUart u).flags = s.flags := rfl
@[simp] theorem setUart_sig (u : Uart) (s : State) : (s.setUart u).sig = s.sig := rfl
@[simp] theorem setUart_pins (u : Uart) (s : State) : (s.setUart u).pins = s.pins := rfl
@[simp] theorem setUart_script (u : Uart) (s : State) : (s.setUart u).script = s.script := rfl
@[simp] theorem setUart_resetSeen (u : Uart) (s : State) : (s.setUart u).resetSeen = s.resetSeen := rfl
@[simp] theorem setUart_faults (u : Uart) (s : State) : (s.setUart u).faults = s.faults := rfl

/-! ## setCol -/

@[simp] theorem setCol_cfg (c : Collector) (s : State) : (s.setCol c).cfg = s.cfg := rfl
@[simp] theorem setCol_uart (c : Collector) (s : State) : (s.setCol c).uart = s.uart := rfl
@[simp] theorem setCol_col (c : Collector) (s : State) : (s.setCol c).col = c := rfl
@[simp] theorem setCol_q (c : Collector) (s : State) : (s.setCol c).q = s.q := rfl
@[simp] theorem setCol_em (c : Collector) (s : State) : (s.setCol c).em = s.em := rfl
@[simp] theorem setCol_record (c : Collector) (s : State) : (s.setCol c).record = s.record := rfl
@[simp] theorem setCol_flags (c : Collector) (s : State) : (s.setCol c).flags = s.flags := rfl
@[simp] theorem setCol_sig (c : Collector) (s : State) : (s.setCol c).sig = s.sig := rfl
@[simp] theorem setCol_pins (c : Collector) (s : State) : (s.setCol c).pins = s.pins := rfl
@[simp] theorem setCol_script (c : Collector) (s : State) : (s.setCol c).script = s.script := rfl
@[simp] theorem setCol_resetSeen (c : Collector) (s : State) : (s.setCol c).resetSeen = s.resetSeen := rfl
@[simp] theorem setCol_faults (c : Collector) (s : State) : (s.setCol c).faults = s.faults := rfl

/-! ## setQ -/

@[simp] theorem setQ_cfg (q : Queue) (s : State) : (s.setQ q).cfg = s.cfg := rfl
@[simp] theorem setQ_uart (q : Queue) (s : State) : (s.setQ q).uart = s.uart := rfl
@[simp] theorem setQ_col (q : Queue) (s : State) : (s.setQ q).col = s.col := rfl
@[simp] theorem setQ_q (q : Queue) (s : State) : (s.setQ q).q = q := rfl
@[simp] theorem setQ_em (q : Queue) (s : State) : (s.setQ q).em = s.em := rfl
@[simp] theorem setQ_record (q : Queue) (s : State) : (s.setQ q).record = s.record := rfl
@[simp] theorem setQ_flags (q : Queue) (s : State) : (s.setQ q).flags = s.flags := rfl
@[simp] theorem setQ_sig (q : Queue) (s : State) : (s.setQ q).sig = s.sig := rfl
@[simp] theorem setQ_pins (q : Queue) (s : State) : (s.setQ q).pins = s.pins := rfl
@[simp] theorem setQ_script (q : Queue) (s : State) : (s.setQ q).script = s.script := rfl
@[simp] theorem setQ_resetSeen (q : Queue) (s : State) : (s.setQ q).resetSeen = s.resetSeen := rfl
@[simp] theorem setQ_faults (q : Queue) (s : State) : (s.setQ q).faults = s.faults := rfl

/-! ## setEm -/

@[simp] theorem setEm_cfg (e : Emitter) (s : State) : (s.setEm e).cfg = s.cfg := rfl
@[simp] theorem setEm_uart (e : Emitter) (s : State) : (s.setEm e).uart = s.uart := rfl
@[simp] theorem setEm_col (e : Emitter) (s : State) : (s.setEm e).col = s.col := rfl
@[simp] theorem setEm_q (e : Emitter) (s : State) : (s.setEm e).q = s.q := rfl
@[simp] theorem setEm_em (e : Emitter) (s : State) : (s.setEm e).em = e := rfl
@[simp] theorem setEm_record (e : Emitter) (s : State) : (s.setEm e).record = s.record := rfl
@[simp] theorem setEm_flags (e : Emitter) (s : State) : (s.setEm e).flags = s.flags := rfl
@[simp] theorem setEm_sig (e : Emitter) (s : State) : (s.setEm e).sig = s.sig := rfl
@[simp] theorem setEm_pins (e : Emitter) (s : State) : (s.setEm e).pins = s.pins := rfl
@[simp] theorem setEm_script (e : Emitter) (s : State) : (s.setEm e).script = s.script := rfl
@[simp] theorem setEm_resetSeen (e : Emitter) (s : State) : (s.setEm e).resetSeen = s.resetSeen := rfl
@[simp] theorem setEm_faults (e : Emitter) (s : State) : (s.setEm e).faults = s.faults := rfl

/-! ## setRecord -/

@[simp] theorem setRecord_cfg (r : Record) (s : State) : (s.setRecord r).cfg = s.cfg := rfl
@[simp] theorem setRecord_uart (r : Record) (s : State) : (s.setRecord r).uart = s.uart := rfl
@[simp] theorem setRecord_col (r : Record) (s : State) : (s.setRecord r).col = s.col := rfl
@[simp] theorem setRecord_q (r : Record) (s : State) : (s.setRecord r).q = s.q := rfl
@[simp] theorem setRecord_em (r : Record) (s : State) : (s.setRecord r).em = s.em := rfl
@[simp] theorem setRecord_record (r : Record) (s : State) : (s.setRecord r).record = r := rfl
@[simp] theorem setRecord_flags (r : Record) (s : State) : (s.setRecord r).flags = s.flags := rfl
@[simp] theorem setRecord_sig (r : Record) (s : State) : (s.setRecord r).sig = s.sig := rfl
@[simp] theorem setRecord_pins (r : Record) (s : State) : (s.setRecord r).pins = s.pins := rfl
@[simp] theorem setRecord_script (r : Record) (s : State) : (s.setRecord r).script = s.script := rfl
@[simp] theorem setRecord_resetSeen (r : Record) (s : State) : (s.setRecord r).resetSeen = s.resetSeen := rfl
@[simp] theorem setRecord_faults (r : Record) (s : State) : (s.setRecord r).faults = s.faults := rfl

/-! ## setFlags -/

@[simp] theorem setFlags_cfg (f : Flags) (s : State) : (s.setFlags f).cfg = s.cfg := rfl
@[simp] theorem setFlags_uart (f : Flags) (s : State) : (s.setFlags f).uart = s.uart := rfl
@[simp] theorem setFlags_col (f : Flags) (s : State) : (s.setFlags f).col = s.col := rfl
@[simp] theorem setFlags_q (f : Flags) (s : State) : (s.setFlags f).q = s.q := rfl
@[simp] theorem setFlags_em (f : Flags) (s : State) : (s.setFlags f).em = s.em := rfl
@[simp] theorem setFlags_record (f : Flags) (s : State) : (s.setFlags f).record = s.record := rfl
@[simp] theorem setFlags_flags (f : Flags) (s : State) : (s.setFlags f).flags = f := rfl
@[simp] theorem setFlags_sig (f : Flags) (s : State) : (s.setFlags f).sig = s.sig := rfl
@[simp] theorem setFlags_pins (f : Flags) (s : State) : (s.setFlags f).pins = s.pins := rfl
@[simp] theorem setFlags_script (f : Flags) (s : State) : (s.setFlags f).script = s.script := rfl
@[simp] theorem setFlags_resetSeen (f : Flags) (s : State) : (s.setFlags f).resetSeen = s.resetSeen := rfl
@[simp] theorem setFlags_faults (f : Flags) (s : State) : (s.setFlags f).faults = s.faults := rfl

/-! ## setSig -/

@[simp] theorem setSig_cfg (g : Signals) (s : State) : (s.setSig g).cfg = s.cfg := rfl
@[simp] theorem setSig_uart (g : Signals) (s : State) : (s.setSig g).uart = s.uart := rfl
@[simp] theorem setSig_col (g : Signals) (s : State) : (s.setSig g).col = s.col := rfl
@[simp] theorem setSig_q (g : Signals) (s : State) : (s.setSig g).q = s.q := rfl
@[simp] theorem setSig_em (g : Signals) (s : State) : (s.setSig g).em = s.em := rfl
@[simp] theorem setSig_record (g : Signals) (s : State) : (s.setSig g).record = s.record := rfl
@[simp] theorem setSig_flags (g : Signals) (s : State) : (s.setSig g).flags = s.flags := rfl
@[simp] theorem setSig_sig (g : Signals) (s : State) : (s.setSig g).sig = g := rfl
@[simp] theorem setSig_pins (g : Signals) (s : State) : (s.setSig g).pins = s.pins := rfl
@[simp] theorem setSig_script (g : Signals) (s : State) : (s.setSig g).script = s.script := rfl
@[simp] theorem setSig_resetSeen (g : Signals) (s : State) : (s.setSig g).resetSeen = s.resetSeen := rfl
@[simp] theorem setSig_faults (g : Signals) (s : State) : (s.setSig g).faults = s.faults := rfl

/-! ## uartEnd -/

@[simp] theorem uartEnd_cfg (u : Uart) (rx : Rx) (s : State) : (uartEnd u rx s).cfg = s.cfg := rfl
@[simp] theorem uartEnd_uart (u : Uart) (rx : Rx) (s : State) : (uartEnd u rx s).uart = u := rfl
@[simp] theorem uartEnd_col (u : Uart) (rx : Rx) (s : State) : (uartEnd u rx s).col = s.col := rfl
@[simp] theorem uartEnd_q (u : Uart) (rx : Rx) (s : State) : (uartEnd u rx s).q = s.q := rfl
@[simp] theorem uartEnd_em (u : Uart) (rx : Rx) (s : State) : (uartEnd u rx s).em = s.em := rfl
@[simp] theorem uartEnd_record (u : Uart) (rx : Rx) (s : State) : (uartEnd u rx s).record = s.record := rfl
@[simp] theorem uartEnd_flags (u : Uart) (rx : Rx) (s : State) : (uartEnd u rx s).flags = s.flags := rfl
@[simp] theorem uartEnd_sig (u : Uart) (rx : Rx) (s : State) : (uartEnd u rx s).sig = { s.sig with rx := rx } := rfl
@[simp] theorem uartEnd_pins (u : Uart) (rx : Rx) (s : State) : (uartEnd u rx s).pins = s.pins := rfl
@[simp] theorem uartEnd_script (u : Uart) (rx : Rx) (s : State) : (uartEnd u rx s).script = s.script := rfl
@[simp] theorem uartEnd_resetSeen (u : Uart) (rx : Rx) (s : State) : (uartEnd u rx s).resetSeen = s.resetSeen := rfl
@[simp] theorem uartEnd_faults (u : Uart) (rx : Rx) (s : State) : (uartEnd u rx s).faults = s.faults := rfl

/-! ## colEnd -/

@[simp] theorem colEnd_cfg (c : Collector) (p : Option Push) (s : State) : (colEnd c p s).cfg = s.cfg := rfl
@[simp] theorem colEnd_uart (c : Collector) (p : Option Push) (s : State) : (colEnd c p s).uart = s.uart := rfl
@[simp] theorem colEnd_col (c : Collector) (p : Option Push) (s : State) : (colEnd c p s).col = c := rfl
@[simp] theorem colEnd_q (c : Collector) (p : Option Push) (s : State) : (colEnd c p s).q = s.q := rfl
@[simp] theorem colEnd_em (c : Collector) (p : Option Push) (s : State) : (colEnd c p s).em = s.em := rfl
@[simp] theorem colEnd_record (c : Collector) (p : Option Push) (s : State) : (colEnd c p s).record = s.record := rfl
@[simp] theorem colEnd_flags (c : Collector) (p : Option Push) (s : State) : (colEnd c p s).flags = s.flags := rfl
@[simp] theorem colEnd_sig (c : Collector) (p : Option Push) (s : State) : (colEnd c p s).sig = { s.sig with push := p } := rfl
@[simp] theorem colEnd_pins (c : Collector) (p : Option Push) (s : State) : (colEnd c p s).pins = s.pins := rfl
@[simp] theorem colEnd_script (c : Collector) (p : Option Push) (s : State) : (colEnd c p s).script = s.script := rfl
@[simp] theorem colEnd_resetSeen (c : Collector) (p : Option Push) (s : State) : (colEnd c p s).resetSeen = s.resetSeen := rfl
@[simp] theorem colEnd_faults (c : Collector) (p : Option Push) (s : State) : (colEnd c p s).faults = s.faults := rfl

/-! ## driveT -/

@[simp] theorem driveT_cfg (t : BitVec 16) (s : State) : (driveT t s).cfg = s.cfg := rfl
@[simp] theorem driveT_uart (t : BitVec 16) (s : State) : (driveT t s).uart = s.uart := rfl
@[simp] theorem driveT_col (t : BitVec 16) (s : State) : (driveT t s).col = s.col := rfl
@[simp] theorem driveT_q (t : BitVec 16) (s : State) : (driveT t s).q = s.q := rfl
@[simp] theorem driveT_em (t : BitVec 16) (s : State) : (driveT t s).em = s.em := rfl
@[simp] theorem driveT_record (t : BitVec 16) (s : State) : (driveT t s).record = s.record := rfl
@[simp] theorem driveT_flags (t : BitVec 16) (s : State) : (driveT t s).flags = s.flags := rfl
@[simp] theorem driveT_sig (t : BitVec 16) (s : State) : (driveT t s).sig = { s.sig with t := t } := rfl
@[simp] theorem driveT_pins (t : BitVec 16) (s : State) : (driveT t s).pins = s.pins := rfl
@[simp] theorem driveT_script (t : BitVec 16) (s : State) : (driveT t s).script = s.script := rfl
@[simp] theorem driveT_resetSeen (t : BitVec 16) (s : State) : (driveT t s).resetSeen = s.resetSeen := rfl
@[simp] theorem driveT_faults (t : BitVec 16) (s : State) : (driveT t s).faults = s.faults := rfl

/-! ## driveFmt -/

@[simp] theorem driveFmt_cfg (f : Fmt) (s : State) : (driveFmt f s).cfg = s.cfg := rfl
@[simp] theorem driveFmt_uart (f : Fmt) (s : State) : (driveFmt f s).uart = s.uart := rfl
@[simp] theorem driveFmt_col (f : Fmt) (s : State) : (driveFmt f s).col = s.col := rfl
@[simp] theorem driveFmt_q (f : Fmt) (s : State) : (driveFmt f s).q = s.q := rfl
@[simp] theorem driveFmt_em (f : Fmt) (s : State) : (driveFmt f s).em = s.em := rfl
@[simp] theorem driveFmt_record (f : Fmt) (s : State) : (driveFmt f s).record = s.record := rfl
@[simp] theorem driveFmt_flags (f : Fmt) (s : State) : (driveFmt f s).flags = s.flags := rfl
@[simp] theorem driveFmt_sig (f : Fmt) (s : State) : (driveFmt f s).sig = { s.sig with fmt := f } := rfl
@[simp] theorem driveFmt_pins (f : Fmt) (s : State) : (driveFmt f s).pins = s.pins := rfl
@[simp] theorem driveFmt_script (f : Fmt) (s : State) : (driveFmt f s).script = s.script := rfl
@[simp] theorem driveFmt_resetSeen (f : Fmt) (s : State) : (driveFmt f s).resetSeen = s.resetSeen := rfl
@[simp] theorem driveFmt_faults (f : Fmt) (s : State) : (driveFmt f s).faults = s.faults := rfl

/-! ## setClass -/

@[simp] theorem setClass_cfg (st : Status) (a b c : Byte) (s : State) : (setClass st a b c s).cfg = s.cfg := rfl
@[simp] theorem setClass_uart (st : Status) (a b c : Byte) (s : State) : (setClass st a b c s).uart = s.uart := rfl
@[simp] theorem setClass_col (st : Status) (a b c : Byte) (s : State) : (setClass st a b c s).col = s.col := rfl
@[simp] theorem setClass_q (st : Status) (a b c : Byte) (s : State) : (setClass st a b c s).q = s.q := rfl
@[simp] theorem setClass_em (st : Status) (a b c : Byte) (s : State) : (setClass st a b c s).em = s.em := rfl
@[simp] theorem setClass_record (st : Status) (a b c : Byte) (s : State) : (setClass st a b c s).record =
    { s.record with status := st, slave := a, func := b, exc := c } := rfl
@[simp] theorem setClass_flags (st : Status) (a b c : Byte) (s : State) : (setClass st a b c s).flags = s.flags := rfl
@[simp] theorem setClass_sig (st : Status) (a b c : Byte) (s : State) : (setClass st a b c s).sig = s.sig := rfl
@[simp] theorem setClass_pins (st : Status) (a b c : Byte) (s : State) : (setClass st a b c s).pins = s.pins := rfl
@[simp] theorem setClass_script (st : Status) (a b c : Byte) (s : State) : (setClass st a b c s).script = s.script := rfl
@[simp] theorem setClass_resetSeen (st : Status) (a b c : Byte) (s : State) : (setClass st a b c s).resetSeen = s.resetSeen := rfl
@[simp] theorem setClass_faults (st : Status) (a b c : Byte) (s : State) : (setClass st a b c s).faults = s.faults := rfl

/-! ## sampleLine -/

@[simp] theorem sampleLine_cfg (s : State) : (sampleLine s).cfg = s.cfg := rfl
@[simp] theorem sampleLine_uart (s : State) : (sampleLine s).uart =
    { s.uart with sync2 := s.uart.sync1, sync1 := s.pins.rxd } := rfl
@[simp] theorem sampleLine_col (s : State) : (sampleLine s).col = s.col := rfl
@[simp] theorem sampleLine_q (s : State) : (sampleLine s).q = s.q := rfl
@[simp] theorem sampleLine_em (s : State) : (sampleLine s).em = s.em := rfl
@[simp] theorem sampleLine_record (s : State) : (sampleLine s).record = s.record := rfl
@[simp] theorem sampleLine_flags (s : State) : (sampleLine s).flags = s.flags := rfl
@[simp] theorem sampleLine_sig (s : State) : (sampleLine s).sig = { s.sig with rxdS := s.uart.sync2 } := rfl
@[simp] theorem sampleLine_pins (s : State) : (sampleLine s).pins = s.pins := rfl
@[simp] theorem sampleLine_script (s : State) : (sampleLine s).script = s.script := rfl
@[simp] theorem sampleLine_resetSeen (s : State) : (sampleLine s).resetSeen = s.resetSeen := rfl
@[simp] theorem sampleLine_faults (s : State) : (sampleLine s).faults = s.faults := rfl

/-! ## fatalEntry -/

@[simp] theorem fatalEntry_cfg (s : State) : (fatalEntry s).cfg = s.cfg := rfl
@[simp] theorem fatalEntry_uart (s : State) : (fatalEntry s).uart = s.uart := rfl
@[simp] theorem fatalEntry_col (s : State) : (fatalEntry s).col = s.col := rfl
@[simp] theorem fatalEntry_q (s : State) : (fatalEntry s).q = s.q := rfl
@[simp] theorem fatalEntry_em (s : State) : (fatalEntry s).em = s.em := rfl
@[simp] theorem fatalEntry_record (s : State) : (fatalEntry s).record = s.record := rfl
@[simp] theorem fatalEntry_flags (s : State) : (fatalEntry s).flags =
    { s.flags with fatal := s.flags.fatal || (s.pins.srcErr && !s.flags.fatal) } := rfl
@[simp] theorem fatalEntry_sig (s : State) : (fatalEntry s).sig =
    { s.sig with
      fatalReq := s.pins.srcErr && !s.flags.fatal
      stop := (s.pins.srcErr && !s.flags.fatal) || s.flags.fatal } := rfl
@[simp] theorem fatalEntry_pins (s : State) : (fatalEntry s).pins = s.pins := rfl
@[simp] theorem fatalEntry_script (s : State) : (fatalEntry s).script = s.script := rfl
@[simp] theorem fatalEntry_resetSeen (s : State) : (fatalEntry s).resetSeen = s.resetSeen := rfl
@[simp] theorem fatalEntry_faults (s : State) : (fatalEntry s).faults = s.faults := rfl

/-! ## raiseFault -/

@[simp] theorem raiseFault_cfg (r : Fault) (s : State) : (raiseFault r s).cfg = s.cfg := rfl
@[simp] theorem raiseFault_uart (r : Fault) (s : State) : (raiseFault r s).uart = s.uart := rfl
@[simp] theorem raiseFault_col (r : Fault) (s : State) : (raiseFault r s).col = s.col := rfl
@[simp] theorem raiseFault_q (r : Fault) (s : State) : (raiseFault r s).q = s.q := rfl
@[simp] theorem raiseFault_em (r : Fault) (s : State) : (raiseFault r s).em = s.em := rfl
@[simp] theorem raiseFault_record (r : Fault) (s : State) : (raiseFault r s).record = s.record := rfl
@[simp] theorem raiseFault_flags (r : Fault) (s : State) : (raiseFault r s).flags = s.flags := rfl
@[simp] theorem raiseFault_sig (r : Fault) (s : State) : (raiseFault r s).sig = s.sig := rfl
@[simp] theorem raiseFault_pins (r : Fault) (s : State) : (raiseFault r s).pins = s.pins := rfl
@[simp] theorem raiseFault_script (r : Fault) (s : State) : (raiseFault r s).script = s.script := rfl
@[simp] theorem raiseFault_resetSeen (r : Fault) (s : State) : (raiseFault r s).resetSeen = s.resetSeen := rfl
@[simp] theorem raiseFault_faults (r : Fault) (s : State) : (raiseFault r s).faults = s.faults ++ [r] := rfl

/-! ## endCycle -/

@[simp] theorem endCycle_cfg (s : State) : (endCycle s).cfg = s.cfg := rfl
@[simp] theorem endCycle_uart (s : State) : (endCycle s).uart = s.uart := rfl
@[simp] theorem endCycle_col (s : State) : (endCycle s).col = s.col := rfl
@[simp] theorem endCycle_q (s : State) : (endCycle s).q = s.q := rfl
@[simp] theorem endCycle_em (s : State) : (endCycle s).em = s.em := rfl
@[simp] theorem endCycle_record (s : State) : (endCycle s).record = s.record := rfl
@[simp] theorem endCycle_flags (s : State) : (endCycle s).flags = s.flags := rfl
@[simp] theorem endCycle_sig (s : State) : (endCycle s).sig = s.sig := rfl
@[simp] theorem endCycle_pins (s : State) : (endCycle s).pins = nextPins s := rfl
@[simp] theorem endCycle_script (s : State) : (endCycle s).script = s.script.tail := rfl
@[simp] theorem endCycle_resetSeen (s : State) : (endCycle s).resetSeen = s.resetSeen := rfl
@[simp] theorem endCycle_faults (s : State) : (endCycle s).faults = s.faults := rfl

/-! ## beginCycle -/

@[simp] theorem beginCycle_cfg (s : State) : (beginCycle s).cfg = s.cfg := rfl
@[simp] theorem beginCycle_uart (s : State) : (beginCycle s).uart = s.uart := rfl
@[simp] theorem beginCycle_col (s : State) : (beginCycle s).col = s.col := rfl
@[simp] theorem beginCycle_q (s : State) : (beginCycle s).q = s.q := rfl
@[simp] theorem beginCycle_em (s : State) : (beginCycle s).em = s.em := rfl
@[simp] theorem beginCycle_record (s : State) : (beginCycle s).record = s.record := rfl
@[simp] theorem beginCycle_flags (s : State) : (beginCycle s).flags = s.flags := rfl
@[simp] theorem beginCycle_sig (s : State) : (beginCycle s).sig = { Signals.quiet with out := outputs s } := rfl
@[simp] theorem beginCycle_pins (s : State) : (beginCycle s).pins = s.pins := rfl
@[simp] theorem beginCycle_script (s : State) : (beginCycle s).script = s.script := rfl
@[simp] theorem beginCycle_resetSeen (s : State) : (beginCycle s).resetSeen = s.resetSeen := rfl
@[simp] theorem beginCycle_faults (s : State) : (beginCycle s).faults = s.faults := rfl

/-! ## popPart -/

@[simp] theorem popPart_cfg (s : State) : (popPart s).cfg = s.cfg := rfl
@[simp] theorem popPart_uart (s : State) : (popPart s).uart = s.uart := rfl
@[simp] theorem popPart_col (s : State) : (popPart s).col = s.col := rfl
@[simp] theorem popPart_q (s : State) : (popPart s).q = s.q := rfl
@[simp] theorem popPart_em (s : State) : (popPart s).em = s.em := rfl
@[simp] theorem popPart_record (s : State) : (popPart s).record = s.record := rfl
@[simp] theorem popPart_flags (s : State) : (popPart s).flags = s.flags := rfl
@[simp] theorem popPart_sig (s : State) : (popPart s).sig = { s.sig with pop := popRequest s } := rfl
@[simp] theorem popPart_pins (s : State) : (popPart s).pins = s.pins := rfl
@[simp] theorem popPart_script (s : State) : (popPart s).script = s.script := rfl
@[simp] theorem popPart_resetSeen (s : State) : (popPart s).resetSeen = s.resetSeen := rfl
@[simp] theorem popPart_faults (s : State) : (popPart s).faults = s.faults := rfl

end Sys2Proof.Machine
end

