-- ==== Sys2Proof/Laws/Cycle.lean ====
section
/-! SUPPORT. What each part of a cycle can do, said once: the operation it runs, and the fields it leaves alone. -/

namespace Sys2Proof.Machine

@[simp] theorem andThen_next (s : State) (k : State → Result) : andThen (.next s) k = k s := rfl
@[simp] theorem andThen_fault (r : Fault) (k : State → Result) : andThen (.fault r) k = .fault r := rfl
@[simp] theorem andThen_refused (r : Refusal) (k : State → Result) : andThen (.refused r) k = .refused r := rfl

theorem andThen_eq_next {o : Result} {k : State → Result} {t : State} :
    andThen o k = .next t ↔ ∃ s, o = .next s ∧ k s = .next t := by
  cases o <;> simp

theorem andThen_eq_fault {o : Result} {k : State → Result} {r : Fault} :
    andThen o k = .fault r ↔ o = .fault r ∨ ∃ s, o = .next s ∧ k s = .fault r := by
  cases o <;> simp

/-- One operation decoded: the selector runs exactly it. -/
theorem runSelector_of_decode {sel : Selector} {i : Instr} (h : decode sel = .ok [i]) (s : State) :
    runSelector sel s = exec i s := by
  simp only [runSelector, h, execAll]
  cases exec i s <;> rfl

/-- The receiver part runs the one operation its conditions select, or raises `Unreachable` with only the synchronizer shifted. -/
theorem uartPart_eq (s : State) : uartPart s =
    match uartOp s.sig.stop s.uart.state (uHit (sampleLine s)) s.uart.sync2 (s.uart.bit == 7) (parEn s.cfg) with
    | some i => exec i (sampleLine s)
    | none => .next (raiseFault (.unreachable .uart (usel (sampleLine s))) (sampleLine s)) := by
  have h := decode_usel (sampleLine s)
  simp only [sampleLine_sig, sampleLine_uart, sampleLine_cfg] at h
  cases hop : uartOp s.sig.stop s.uart.state (uHit (sampleLine s)) s.uart.sync2 (s.uart.bit == 7) (parEn s.cfg) with
  | some i => rw [hop] at h; exact runSelector_of_decode h _
  | none => rw [hop] at h; simp only [uartPart, runSelector, h, decoded]; rfl

/-- The collector part runs the one operation its conditions select, or raises `Unreachable` and nothing else. -/
theorem collectorPart_eq (s : State) : collectorPart s =
    match collectorOp s.sig.stop s.col.state s.sig.rx.strobe (cHit s) (s.col.len == 255) with
    | some i => exec i s
    | none => .next (raiseFault (.unreachable .collector ((csel s).setWidth 8)) s) := by
  have h := decode_csel s
  cases hop : collectorOp s.sig.stop s.col.state s.sig.rx.strobe (cHit s) (s.col.len == 255) with
  | some i => rw [hop] at h; exact runSelector_of_decode h _
  | none => rw [hop] at h; simp only [collectorPart, runSelector, h, decoded]; rfl

/-- The emitter part always runs one operation. -/
theorem emitterPart_eq (s : State) : emitterPart s =
    exec (emitterOp s.em.state (s.q.count != 0) (decide (headLen s < Config.minFrame)) (s.em.bit == 7) (crcLast s)
      (lineLast s.em)) s :=
  runSelector_of_decode (decode_esel s) s

/-! ## What each part leaves -/

@[simp] theorem stickRx_quiet (f : Flags) : stickRx .quiet f = f := by simp [stickRx, Rx.quiet]

/-- The receiver part writes the receiver's registers, `rxd_s`, the receiver's signals and, with a byte's errors, two flags; without a row it
raises `Unreachable` and drives nothing. No other field changes. -/
theorem uartPart_effect {s t : State} (hx : s.sig.rx = .quiet) (h : uartPart s = .next t) :
    ∃ (st : UState) (cnt : BitVec 24) (bit : BitVec 3) (shift : BitVec 8) (par : Bool) (rx : Rx) (fs : List Fault),
      (∀ r ∈ fs, ∃ w, r = .unreachable .uart w)
      ∧ t = { s with
        uart := ⟨s.pins.rxd, s.uart.sync1, st, cnt, bit, shift, par⟩
        sig := { s.sig with rxdS := s.uart.sync2, rx := rx }
        flags := stickRx rx s.flags
        faults := s.faults ++ fs } := by
  have hq : s.flags = stickRx .quiet s.flags := (stickRx_quiet _).symm
  have hn : s.faults = s.faults ++ [] := (List.append_nil _).symm
  rw [uartPart_eq] at h
  split at h
  · rename_i i hi
    simp only [uartOp] at hi
    split at hi
    · cases hi; cases h; exact ⟨_, _, _, _, _, .quiet, [], by simp, by rw [← hq, ← hn]; rfl⟩
    · split at hi
      all_goals (repeat' split at hi)
      all_goals first
        | (cases hi; done)
        | (cases hi; cases h; exact ⟨_, _, _, _, _, .quiet, [], by simp, by rw [← hq, ← hn]; rfl⟩)
        | (cases hi; cases h; exact ⟨_, _, _, _, _, _, [], by simp, by rw [← hn]; rfl⟩)
  · cases h
    refine ⟨s.uart.state, s.uart.cnt, s.uart.bit, s.uart.shift, s.uart.par, .quiet, [.unreachable .uart (usel (sampleLine s))],
      ?_, ?_⟩
    · intro r hr; exact ⟨_, List.mem_singleton.1 hr⟩
    · rw [← hq]; simp only [raiseFault, sampleLine]; rw [← hx]

/-- The collector part writes the collector's registers and the push request; without a row it raises `Unreachable` and nothing else. -/
theorem collectorPart_effect {s t : State} (h : collectorPart s = .next t) :
    (∃ c p, t = colEnd c p s) ∨ ∃ w, t = raiseFault (.unreachable .collector w) s := by
  rw [collectorPart_eq] at h
  split at h
  · left
    rename_i i hi
    simp only [collectorOp] at hi
    split at hi
    · cases hi; cases h; exact ⟨_, _, rfl⟩
    · split at hi
      all_goals (repeat' split at hi)
      all_goals first | (cases hi; done) | (cases hi; cases h; exact ⟨_, _, rfl⟩)
  · cases h; exact .inr ⟨_, rfl⟩

/-- The receiver part goes on from every state. -/
theorem uartPart_next (s : State) : ∃ t, uartPart s = .next t := by
  rw [uartPart_eq]
  split
  · rename_i i hi
    simp only [uartOp] at hi
    split at hi
    · cases hi; exact ⟨_, rfl⟩
    · split at hi
      all_goals (repeat' split at hi)
      all_goals first | (cases hi; done) | (cases hi; exact ⟨_, rfl⟩)
  · exact ⟨_, rfl⟩

/-- The collector part goes on from every state. -/
theorem collectorPart_next (s : State) : ∃ t, collectorPart s = .next t := by
  rw [collectorPart_eq]
  split
  · rename_i i hi
    simp only [collectorOp] at hi
    split at hi
    · cases hi; exact ⟨_, rfl⟩
    · split at hi
      all_goals (repeat' split at hi)
      all_goals first | (cases hi; done) | (cases hi; exact ⟨_, rfl⟩)
  · exact ⟨_, rfl⟩

theorem crcBitStep_eq (s : State) : crcBitStep s =
    .next { s with sig := { s.sig with t := crcFeed s }, em := { s.em with crc := crcBit (crcFeed s) } } := by
  simp only [crcBitStep, crcFeed]
  by_cases hb : s.em.bit = 0
  · simp only [hb, if_true, execCrcByteIn, andThen_next, driveT_sig, execCrcShiftXor, execCrcShift, driveT_em, crcBit]
    split <;> rfl
  · simp only [hb, if_false, andThen_next, driveT_sig, execCrcShiftXor, execCrcShift, driveT_em, crcBit]
    by_cases hl : s.em.crc.getLsbD 0 = true <;> simp only [hl, if_true] <;> rfl

theorem classifyHead_eq (s : State) : classifyHead s =
    .next (s.setRecord
      (if headLen s < Config.minFrame then { s.record with status := .shortFrame, slave := 0, func := 0, exc := 0 }
      else if headReceivedCrc s ≠ s.em.crc then { s.record with status := .badCrc, slave := 0, func := 0, exc := 0 }
      else if 0x80 < (headRead s 1).toNat then
        { s.record with status := .exception, slave := headRead s 0, func := headRead s 1, exc := headRead s 2 }
      else { s.record with status := .ok, slave := headRead s 0, func := headRead s 1, exc := 0 })) := by
  simp only [classifyHead]
  repeat' split
  all_goals rfl

/-- A formatter drive after another replaces it. -/
@[simp] theorem driveFmt_driveFmt (a b : Fmt) (s : State) : driveFmt a (driveFmt b s) = driveFmt a s := by
  simp only [driveFmt, State.setSig]
@[simp] theorem driveFmt_fmt (a : Fmt) (s : State) : (driveFmt a s).sig.fmt = a := by
  simp only [driveFmt, State.setSig]
/-- The formatter's drives one after another, with the texts given. -/
theorem lineDrives (hex token dec stamp : Text) (civil : Int × Int × Int) (s : State) :
    (andThen (.next (driveFmt { s.sig.fmt with hexFrame := hex } s)) fun s =>
      andThen (.next (driveFmt { s.sig.fmt with token := token } s)) fun s =>
      andThen (.next (driveFmt { s.sig.fmt with dec := dec } s)) fun s =>
      andThen (.next (driveFmt { s.sig.fmt with civil := civil, stamp := stamp } s)) fun s =>
      .next (driveFmt { s.sig.fmt with line := lineFrom s.sig.fmt.stamp s.sig.fmt.token s.sig.fmt.hexFrame s.sig.fmt.dec } s))
    = .next (driveFmt { s.sig.fmt with
        hexFrame := hex, token := token, dec := dec, civil := civil, stamp := stamp, line := lineFrom stamp token hex dec } s) := by
  simp only [andThen_next, driveFmt_fmt, driveFmt_driveFmt]

/-- LINE within TS_MAX drives the formatter's signals alone, and the line is that of its operands. -/
theorem execLine_eq (st : Status) (v : Byte) (ts : BitVec 64) (f : Frame) (s : State) : execLine st v ts f s =
    if Config.tsMax < ts.toNat then .refused (.timestampOutOfRange ts)
    else .next (driveFmt {
      hexByte := s.sig.fmt.hexByte
      hexFrame := hexFrameText f
      token := statusTokenText st
      dec := decU8Text v
      civil := civilFromDays (ts.toNat / 86400000 : Nat)
      stamp := timestampText ts
      line := lineText st v ts f } s) := by
  by_cases h : Config.tsMax < ts.toNat
  · have e : ∀ s, execTimestamp ts s = .refused (.timestampOutOfRange ts) := fun s => if_pos h
    rw [if_pos h]
    unfold execLine
    simp only [e]
    rfl
  · have e : ∀ s, execTimestamp ts s = .next (driveFmt { s.sig.fmt with
        civil := civilFromDays (ts.toNat / 86400000 : Nat), stamp := timestampText ts } s) := fun s => if_neg h
    rw [if_neg h]
    unfold execLine lineText
    simp only [e]
    exact lineDrives _ _ _ _ _ s

/-- The emitter part writes the emitter's registers, the record, and the signals `t`, `pop`, the formatter's and the outputs; no other field. -/
theorem emitterPart_effect {s t : State} (h : emitterPart s = .next t) :
    ∃ (e : Emitter) (r : Record) (tv : BitVec 16) (fmt : Fmt) (out : Outputs),
      t = { s with
        em := e
        record := r
        sig := { s.sig with t := tv, fmt := fmt, out := out, pop := s.sig.pop || popRequest s } } := by
  rw [emitterPart_eq] at h
  cases hst : s.em.state with
  | idle =>
    have hp : popRequest s = false := by simp [popRequest, hst]
    rw [hp, Bool.or_false]
    simp only [hst, emitterOp] at h
    repeat' split at h
    all_goals (cases h; exact ⟨_, _, _, _, _, rfl⟩)
  | crc =>
    have hp : popRequest s = false := by simp [popRequest, hst]
    rw [hp, Bool.or_false]
    simp only [hst, emitterOp] at h
    repeat' split at h
    all_goals simp only [exec, execECrcDone, execECrcNextByte, execECrcStep, crcBitStep_eq, andThen_next] at h
    all_goals (cases h; exact ⟨_, _, _, _, _, rfl⟩)
  | classify =>
    have hp : popRequest s = false := by simp [popRequest, hst]
    rw [hp, Bool.or_false]
    obtain ⟨r, hr⟩ : ∃ r, classifyHead s = .next (s.setRecord r) := ⟨_, classifyHead_eq s⟩
    simp only [hst, emitterOp, exec, execEClassify, hr, andThen_next, execLine_eq] at h
    split at h
    · cases h
    · cases h; exact ⟨_, _, _, _, _, rfl⟩
  | line =>
    simp only [hst, emitterOp] at h
    split at h
    · rename_i hl
      have hp : popRequest s = true := by simp [popRequest, hst, hl]
      rw [hp, Bool.or_true]
      cases h; exact ⟨_, _, _, _, _, rfl⟩
    · rename_i hl
      have hp : popRequest s = false := by simp [popRequest, hl]
      rw [hp, Bool.or_false]
      cases h; exact ⟨_, _, _, _, _, rfl⟩

/-- QUEUE_COMMIT goes on from every state. -/
theorem queueCommit_next (s : State) : ∃ t, queueCommit s = .next t := by
  simp only [queueCommit]
  split
  · exact ⟨_, rfl⟩
  · split <;> exact ⟨_, rfl⟩

/-- QUEUE_COMMIT writes the queue and, for a dropped frame, its flag and the fault record; no other field. -/
theorem queueCommit_effect {s t : State} (h : queueCommit s = .next t) :
    (∃ q, t = s.setQ q) ∨ ∃ n ts, t = raiseFault (.overrun n ts)
      { s with q := popQueue s.sig.pop s.q, flags := { s.flags with overrun := true } } := by
  simp only [queueCommit] at h
  split at h
  · cases h; exact .inl ⟨_, rfl⟩
  · split at h
    · cases h; exact .inl ⟨_, rfl⟩
    · cases h; exact .inr ⟨_, _, rfl⟩

/-! ## One step -/

/-- A step is a reset cycle, or the parts of a cycle one after another. -/
theorem step_cases {s t : State} (h : step s = .next t) :
    (s.pins.rst = true ∧ t = endCycle (resetCycle s)) ∨
    (s.pins.rst = false ∧ s.resetSeen = true ∧ cfgLegal s.cfg = true ∧ ∃ s1 s2 s3 s4,
      uartPart (fatalEntry (beginCycle s)) = .next s1 ∧ collectorPart (popPart s1) = .next s2 ∧
      emitterPart s2 = .next s3 ∧ queueCommit s3 = .next s4 ∧ t = endCycle s4) := by
  simp only [step, clockEdge] at h
  split at h
  · rename_i hr; cases h; exact .inl ⟨hr, rfl⟩
  · rename_i hr
    split at h
    · cases h
    · split at h
      · cases h
      · rename_i h1 h2
        simp only [cycle, andThen_eq_next, exec, execFatalEntry, execQueueCommit] at h
        obtain ⟨s4, ⟨s0, h0, s1, hu, s2, hc, s3, he, hq⟩, h4⟩ := h
        cases h0
        cases h4
        exact .inr ⟨by simpa using hr, by simpa using h1, by simpa using h2, s1, s2, s3, s4, hu, hc, he, hq, rfl⟩

end Sys2Proof.Machine
end

