-- ==== Sys2Proof/Laws/Observe.lean ====
section
/-! SUPPORT. An observation cycle by cycle (60_exceptions.md R145). -/

namespace Sys2Proof.Machine

@[simp] theorem observe_zero (s : State) : observe 0 s = .next ⟨[], s.faults⟩ := rfl

@[simp] theorem observeCycle_next (o : Outputs) (r : Observation) :
    observeCycle o (.next r) = .next { r with outputs := o :: r.outputs } := rfl

theorem observe_succ {s t : State} (h : step s = .next t) (n : Nat) :
    observe (n + 1) s = observeCycle (outputs s) (observe n t) := by
  simp only [observe, h]

/-- An observation of `n` cycles has `n` outputs. -/
theorem observe_length {n : Nat} {s : State} {o : Observation} (h : observe n s = .next o) : o.outputs.length = n := by
  induction n generalizing s o with
  | zero => cases h; rfl
  | succ n ih =>
    rw [observe] at h
    split at h
    · rename_i t _
      cases hr : observe n t with
      | next r => rw [hr] at h; cases h; simp [ih hr]
      | fault r => rw [hr] at h; cases h
      | refused r => rw [hr] at h; cases h
    · cases h
    · cases h

@[simp] theorem linesFrom_nil (cur : Option Text) : linesFrom cur [] = [] := rfl

end Sys2Proof.Machine
end

