-- ==== Sys2Proof/Laws/PerInstr.lean ====
section
/-! SUPPORT. One family of statements over all operations: each word that an operation's row admits decodes to it. -/

namespace Sys2Proof.Laws.SelectorWord

/-- Every word of the operation selects it, and, outside KSEL, it alone (30_encoding.md R51 to R55). -/
def Statement (i : Instr) : Prop :=
  ∀ (free : BitVec 8) (sel : Selector), encode i free = some sel →
    ∃ ops, decode sel = .ok ops ∧ i ∈ ops ∧ (sel.engine ≠ .crc → ops = [i])

/-- A selected operation's statement from its decoding at each filling of the bits its row leaves open. -/
theorem of_single {i : Instr} {f : BitVec 8 → Selector} (he : ∀ free, encode i free = some (f free))
    (hd : ∀ free, decode (f free) = .ok [i]) : Statement i := by
  intro free sel h
  rw [he, Option.some.injEq] at h
  exact ⟨[i], h ▸ hd free, List.mem_singleton.2 rfl, fun _ => rfl⟩

/-- R51: a word that a row matches selects its operation alone. -/
theorem usel_words : ∀ r ∈ uselRows, ∀ w : BitVec 8, rowMatches w r = true → decode (.usel w) = .ok [r.op] := by decide +kernel

/-- R52. -/
theorem csel_words : ∀ r ∈ cselRows, ∀ w : BitVec 6, rowMatches (w.setWidth 8) r = true → decode (.csel w) = .ok [r.op] := by
  decide +kernel

/-- R54. -/
theorem vsel_words : ∀ r ∈ vselRows, ∀ w : BitVec 3, rowMatches (w.setWidth 8) r = true → decode (.vsel w) = .ok [r.op] := by
  decide +kernel

/-- R55. -/
theorem esel_words : ∀ r ∈ eselRows, ∀ w : BitVec 7, rowMatches (w.setWidth 8) r = true → decode (.esel w) = .ok [r.op] := by
  decide +kernel

/-- R53: CRC_BYTE_IN and a shift may come from one word. -/
theorem ksel_words : ∀ r ∈ kselRows, ∀ w : BitVec 2, rowMatches (w.setWidth 8) r = true →
    ∃ ops ∈ [[Instr.crcByteIn, .crcShift], [.crcByteIn, .crcShiftXor], [.crcShift], [.crcShiftXor]],
      decode (.ksel w) = .ok ops ∧ r.op ∈ ops := by decide +kernel

/-- Filling the bits that a row leaves open keeps its match, in a word of the row's width. -/
theorem rowMatches_fill {n : Nat} {r : Row} (hp : r.pattern &&& r.mask = r.pattern) (hm : (r.mask.setWidth n).setWidth 8 = r.mask)
    (free : BitVec 8) : rowMatches (((fillFree r.pattern r.mask free).setWidth n).setWidth 8) r = true := by
  have h : ((fillFree r.pattern r.mask free).setWidth n).setWidth 8 &&& r.mask = r.pattern := by
    apply BitVec.eq_of_getLsbD_eq
    intro j hj
    have hp' := congrArg (BitVec.getLsbD · j) hp
    have hm' := congrArg (BitVec.getLsbD · j) hm
    simp only [BitVec.getLsbD_and, BitVec.getLsbD_setWidth, fillFree, BitVec.getLsbD_or, BitVec.getLsbD_not] at *
    cases h1 : r.pattern.getLsbD j <;> cases h2 : r.mask.getLsbD j <;> cases h3 : decide (j < n) <;> simp_all
  simp [rowMatches, h]

theorem usel_row (r : Row) (hr : r ∈ uselRows) (hp : r.pattern &&& r.mask = r.pattern) (free : BitVec 8) :
    decode (.usel (fillFree r.pattern r.mask free)) = .ok [r.op] :=
  usel_words r hr _ (by simpa using rowMatches_fill (n := 8) hp (by simp) free)

theorem csel_row (r : Row) (hr : r ∈ cselRows) (hp : r.pattern &&& r.mask = r.pattern ∧ (r.mask.setWidth 6).setWidth 8 = r.mask)
    (free : BitVec 8) : decode (.csel ((fillFree r.pattern r.mask free).setWidth 6)) = .ok [r.op] :=
  csel_words r hr _ (rowMatches_fill hp.1 hp.2 free)

theorem vsel_row (r : Row) (hr : r ∈ vselRows) (hp : r.pattern &&& r.mask = r.pattern ∧ (r.mask.setWidth 3).setWidth 8 = r.mask)
    (free : BitVec 8) : decode (.vsel ((fillFree r.pattern r.mask free).setWidth 3)) = .ok [r.op] :=
  vsel_words r hr _ (rowMatches_fill hp.1 hp.2 free)

theorem esel_row (r : Row) (hr : r ∈ eselRows) (hp : r.pattern &&& r.mask = r.pattern ∧ (r.mask.setWidth 7).setWidth 8 = r.mask)
    (free : BitVec 8) : decode (.esel ((fillFree r.pattern r.mask free).setWidth 7)) = .ok [r.op] :=
  esel_words r hr _ (rowMatches_fill hp.1 hp.2 free)

theorem ksel_row (r : Row) (hr : r ∈ kselRows) (hp : r.pattern &&& r.mask = r.pattern ∧ (r.mask.setWidth 2).setWidth 8 = r.mask)
    (free : BitVec 8) : ∃ ops ∈ [[Instr.crcByteIn, .crcShift], [.crcByteIn, .crcShiftXor], [.crcShift], [.crcShiftXor]],
      decode (.ksel ((fillFree r.pattern r.mask free).setWidth 2)) = .ok ops ∧ r.op ∈ ops :=
  ksel_words r hr _ (rowMatches_fill hp.1 hp.2 free)

/-- The same for KSEL, where CRC_BYTE_IN and a shift may share a word. -/
theorem of_crc {i : Instr} {f : BitVec 8 → Selector} (he : ∀ free, encode i free = some (f free)) (hc : ∀ free, (f free).engine = .crc)
    (hd : ∀ free, ∃ ops ∈ [[Instr.crcByteIn, .crcShift], [.crcByteIn, .crcShiftXor], [.crcShift], [.crcShiftXor]],
      decode (f free) = .ok ops ∧ i ∈ ops) : Statement i := by
  intro free sel h
  rw [he, Option.some.injEq] at h
  subst h
  obtain ⟨ops, -, h1, h2⟩ := hd free
  exact ⟨ops, h1, h2, fun hne => absurd (hc free) hne⟩

/-- An operation that no selector selects has no word. -/
theorem of_none {i : Instr} (he : ∀ free, encode i free = none) : Statement i := by
  intro free sel h
  rw [he] at h
  cases h

theorem uStopped : Statement .uStopped := of_single (fun _ => rfl) (usel_row ⟨.uStopped, 0x80, 0x80⟩ (by decide) (by decide))
theorem uIdleWait : Statement .uIdleWait := of_single (fun _ => rfl) (usel_row ⟨.uIdleWait, 0x04, 0xF4⟩ (by decide) (by decide))
theorem uStartDetect : Statement .uStartDetect := of_single (fun _ => rfl) (usel_row ⟨.uStartDetect, 0x00, 0xF4⟩ (by decide) (by decide))
theorem uStartCount : Statement .uStartCount := of_single (fun _ => rfl) (usel_row ⟨.uStartCount, 0x10, 0xF8⟩ (by decide) (by decide))
theorem uStartConfirm : Statement .uStartConfirm := of_single (fun _ => rfl) (usel_row ⟨.uStartConfirm, 0x18, 0xFC⟩ (by decide) (by decide))
theorem uStartReject : Statement .uStartReject := of_single (fun _ => rfl) (usel_row ⟨.uStartReject, 0x1C, 0xFC⟩ (by decide) (by decide))
theorem uDataCount : Statement .uDataCount := of_single (fun _ => rfl) (usel_row ⟨.uDataCount, 0x20, 0xF8⟩ (by decide) (by decide))
theorem uDataSample : Statement .uDataSample := of_single (fun _ => rfl) (usel_row ⟨.uDataSample, 0x28, 0xFA⟩ (by decide) (by decide))
theorem uDataLastNopar : Statement .uDataLastNopar := of_single (fun _ => rfl) (usel_row ⟨.uDataLastNopar, 0x2A, 0xFB⟩ (by decide) (by decide))
theorem uDataLastPar : Statement .uDataLastPar := of_single (fun _ => rfl) (usel_row ⟨.uDataLastPar, 0x2B, 0xFB⟩ (by decide) (by decide))
theorem uParCount : Statement .uParCount := of_single (fun _ => rfl) (usel_row ⟨.uParCount, 0x30, 0xF8⟩ (by decide) (by decide))
theorem uParSample : Statement .uParSample := of_single (fun _ => rfl) (usel_row ⟨.uParSample, 0x38, 0xF8⟩ (by decide) (by decide))
theorem uStopCount : Statement .uStopCount := of_single (fun _ => rfl) (usel_row ⟨.uStopCount, 0x40, 0xF8⟩ (by decide) (by decide))
theorem uStopSample : Statement .uStopSample := of_single (fun _ => rfl) (usel_row ⟨.uStopSample, 0x4C, 0xFC⟩ (by decide) (by decide))
theorem uStopSampleFerr : Statement .uStopSampleFerr := of_single (fun _ => rfl) (usel_row ⟨.uStopSampleFerr, 0x48, 0xFC⟩ (by decide) (by decide))
theorem uWaitLow : Statement .uWaitLow := of_single (fun _ => rfl) (usel_row ⟨.uWaitLow, 0x50, 0xF4⟩ (by decide) (by decide))
theorem uWaitRelease : Statement .uWaitRelease := of_single (fun _ => rfl) (usel_row ⟨.uWaitRelease, 0x54, 0xF4⟩ (by decide) (by decide))
theorem cStopped : Statement .cStopped := of_single (fun _ => rfl) (csel_row ⟨.cStopped, 0x20, 0x20⟩ (by decide) (by decide))
theorem cSettleWait : Statement .cSettleWait := of_single (fun _ => rfl) (csel_row ⟨.cSettleWait, 0x00, 0x3A⟩ (by decide) (by decide))
theorem cSettleDrain : Statement .cSettleDrain := of_single (fun _ => rfl) (csel_row ⟨.cSettleDrain, 0x02, 0x3A⟩ (by decide) (by decide))
theorem cIdleWait : Statement .cIdleWait := of_single (fun _ => rfl) (csel_row ⟨.cIdleWait, 0x08, 0x3E⟩ (by decide) (by decide))
theorem cIdleEmptyRead : Statement .cIdleEmptyRead := of_single (fun _ => rfl) (csel_row ⟨.cIdleEmptyRead, 0x0A, 0x3E⟩ (by decide) (by decide))
theorem cIdleFirstByte : Statement .cIdleFirstByte := of_single (fun _ => rfl) (csel_row ⟨.cIdleFirstByte, 0x0C, 0x3C⟩ (by decide) (by decide))
theorem cColWait : Statement .cColWait := of_single (fun _ => rfl) (csel_row ⟨.cColWait, 0x10, 0x3E⟩ (by decide) (by decide))
theorem cColSilenceClose : Statement .cColSilenceClose := of_single (fun _ => rfl) (csel_row ⟨.cColSilenceClose, 0x12, 0x3E⟩ (by decide) (by decide))
theorem cColAppend : Statement .cColAppend := of_single (fun _ => rfl) (csel_row ⟨.cColAppend, 0x14, 0x3D⟩ (by decide) (by decide))
theorem cColFullClose : Statement .cColFullClose := of_single (fun _ => rfl) (csel_row ⟨.cColFullClose, 0x15, 0x3D⟩ (by decide) (by decide))
theorem crcInit : Statement .crcInit := of_none fun _ => rfl
theorem crcByteIn : Statement .crcByteIn := of_crc (fun _ => rfl) (fun _ => rfl) (ksel_row ⟨.crcByteIn, 0x02, 0x02⟩ (by decide) (by decide))
theorem crcShift : Statement .crcShift := of_crc (fun _ => rfl) (fun _ => rfl) (ksel_row ⟨.crcShift, 0x00, 0x01⟩ (by decide) (by decide))
theorem crcShiftXor : Statement .crcShiftXor := of_crc (fun _ => rfl) (fun _ => rfl) (ksel_row ⟨.crcShiftXor, 0x01, 0x01⟩ (by decide) (by decide))
theorem vShortFrame : Statement .vShortFrame := of_single (fun _ => rfl) (vsel_row ⟨.vShortFrame, 0x00, 0x04⟩ (by decide) (by decide))
theorem vBadCrc : Statement .vBadCrc := of_single (fun _ => rfl) (vsel_row ⟨.vBadCrc, 0x04, 0x06⟩ (by decide) (by decide))
theorem vOk : Statement .vOk := of_single (fun _ => rfl) (vsel_row ⟨.vOk, 0x06, 0x07⟩ (by decide) (by decide))
theorem vException : Statement .vException := of_single (fun _ => rfl) (vsel_row ⟨.vException, 0x07, 0x07⟩ (by decide) (by decide))
theorem eIdleWait : Statement .eIdleWait := of_single (fun _ => rfl) (esel_row ⟨.eIdleWait, 0x00, 0x70⟩ (by decide) (by decide))
theorem eDequeueShort : Statement .eDequeueShort := of_single (fun _ => rfl) (esel_row ⟨.eDequeueShort, 0x18, 0x78⟩ (by decide) (by decide))
theorem eDequeueCrc : Statement .eDequeueCrc := of_single (fun _ => rfl) (esel_row ⟨.eDequeueCrc, 0x10, 0x78⟩ (by decide) (by decide))
theorem eCrcStep : Statement .eCrcStep := of_single (fun _ => rfl) (esel_row ⟨.eCrcStep, 0x20, 0x64⟩ (by decide) (by decide))
theorem eCrcNextByte : Statement .eCrcNextByte := of_single (fun _ => rfl) (esel_row ⟨.eCrcNextByte, 0x24, 0x66⟩ (by decide) (by decide))
theorem eCrcDone : Statement .eCrcDone := of_single (fun _ => rfl) (esel_row ⟨.eCrcDone, 0x26, 0x66⟩ (by decide) (by decide))
theorem eClassify : Statement .eClassify := of_single (fun _ => rfl) (esel_row ⟨.eClassify, 0x40, 0x60⟩ (by decide) (by decide))
theorem eLineChar : Statement .eLineChar := of_single (fun _ => rfl) (esel_row ⟨.eLineChar, 0x60, 0x61⟩ (by decide) (by decide))
theorem eLineLast : Statement .eLineLast := of_single (fun _ => rfl) (esel_row ⟨.eLineLast, 0x61, 0x61⟩ (by decide) (by decide))
theorem hexByte (a : Byte) : Statement (.hexByte a) := of_none fun _ => rfl
theorem hexFrame (a : Frame) : Statement (.hexFrame a) := of_none fun _ => rfl
theorem statusToken (a : Status) : Statement (.statusToken a) := of_none fun _ => rfl
theorem decU8 (a : Byte) : Statement (.decU8 a) := of_none fun _ => rfl
theorem civilFromDays (a : Int) : Statement (.civilFromDays a) := of_none fun _ => rfl
theorem timestamp (a : BitVec 64) : Statement (.timestamp a) := of_none fun _ => rfl
theorem line (a : Status) (b : Byte) (c : BitVec 64) (d : Frame) : Statement (.line a b c d) := of_none fun _ => rfl
theorem fatalEntry : Statement .fatalEntry := of_none fun _ => rfl
theorem queueCommit : Statement .queueCommit := of_none fun _ => rfl

end Sys2Proof.Laws.SelectorWord
end

