-- ==== Sys2Proof/Laws/Uart.lean ====
section
/-! SUPPORT. The receiver's counters and its shift register, in numbers and bits. -/

namespace Sys2Proof.Machine

/-- `u_cnt == H` in numbers (40_uart_rx.md). -/
theorem eq_halfBit_iff (c : Cfg) (x : BitVec 24) : x = halfBit c ↔ x.toNat = c.baudDiv.toNat / 2 := by
  simp [halfBit, ← BitVec.toNat_inj, Nat.shiftRight_eq_div_pow]

/-- A count that has not reached its end does not pass it. -/
theorem cnt_succ {x : BitVec 24} {n : Nat} (h1 : x.toNat ≤ n) (h2 : x.toNat ≠ n) (h3 : n < 2 ^ 24) :
    1 ≤ (x + 1).toNat ∧ (x + 1).toNat ≤ n := by bv_omega

/-- Bit 7 of `{bit, u_shift[7:1]}` is the new bit, and bit j < 7 the old bit j + 1. -/
theorem shiftIn_getLsbD (b : Bool) (x : BitVec 8) (j : Nat) :
    (shiftIn b x).getLsbD j = if j < 7 then x.getLsbD (j + 1) else (decide (j = 7) && b) := by
  simp only [shiftIn, BitVec.getLsbD_append, BitVec.getLsbD_extractLsb', BitVec.getLsbD_ofBool]
  by_cases h : j < 7
  · simp [h, Nat.add_comm]
  · have : j - 7 = 0 ↔ j = 7 := by omega
    simp [h, this]

end Sys2Proof.Machine
end

