-- ==== Sys2Proof/Laws/Validator.lean ====
section
/-! SUPPORT. The validator's operation on the head frame is VALIDATE with the CRC that stands in `e_crc` (43_frame_validator.md R103). -/

namespace Sys2Proof.Machine

@[simp] theorem headFrame_length (s : State) : (headFrame s).length = headLen s := by simp [headFrame]

/-- A byte of the head frame is the read of it. -/
theorem frameByte_headFrame {s : State} {i : Nat} (h : i < headLen s) : frameByte (headFrame s) i = headRead s i :=
  memBytes_getD _ h

/-- The classification's status, slave, func and exc are those of VALIDATE; length and time are written apart (R127). -/
theorem classifyHead_validate (s : State) : classifyHead s = .next (s.setRecord
    { validateWith s.em.crc (headFrame s) s.q.headEntry.ts with len := s.record.len, ts := s.record.ts }) := by
  rw [classifyHead_eq]
  congr 2
  simp only [validateWith, headFrame_length]
  by_cases h5 : headLen s < Config.minFrame
  · simp only [h5, if_true]
  · have h5' : 5 ≤ headLen s := by simpa [Config.minFrame] using h5
    have hr : frameReceivedCrc (headFrame s) = headReceivedCrc s := by
      simp only [frameReceivedCrc, headReceivedCrc, headFrame_length]
      rw [frameByte_headFrame (by omega), frameByte_headFrame (by omega)]
    simp only [h5, if_false, hr, frameByte_headFrame (show 0 < headLen s by omega), frameByte_headFrame (show 1 < headLen s by omega),
      frameByte_headFrame (show 2 < headLen s by omega)]
    split
    · rfl
    · split <;> rfl

end Sys2Proof.Machine
end

