-- ==== Sys2Proof/Machine/Stimulus.lean ====
section
/-! DEFINITION. The stimulus notation (30_encoding.md R58): a script of statements expands to the inputs of its cycles. It drives the
block's inputs and is no operation of the block (R59). -/

namespace Sys2Proof.Machine

/-- The statements of R58 but CONFIG, which is `ScriptConfig`. -/
inductive Stim where
  | time (t : BitVec 64)
  | reset (n : Nat)
  | idle (n : Nat)
  | low (n : Nat)
  | tx (bs : Frame)
  | txp (b : Byte) (p : Bool)
  | txf (b : Byte)
  | srcErr
  | frame (bs : Frame)
  deriving DecidableEq, Repr

/-- CONFIG: the `cfg_*` inputs, held for the whole script; `tmo` = none is DERIVED. `parity` and `stop` are the codes of R44 and R45: R58
does not say what `stop`'s value means, and a program of 95_test_vectors.md that writes `stop=1` for one stop bit has the code 0 here
(DESIGN CHOICE, log entry 16). -/
structure ScriptConfig where
  baudDiv : BitVec 24
  parity : BitVec 3
  stop : BitVec 2
  tmo : Option (BitVec 32)
  settle : BitVec 32
  deriving DecidableEq, Repr

/-- The `cfg_*` inputs of a CONFIG. With `tmo` DERIVED the override input is 0: 10_state.md R14 allows any value there (DESIGN CHOICE,
log entry 15). -/
def ScriptConfig.pins (c : ScriptConfig) : CfgPins where
  baudDiv := c.baudDiv
  parity := c.parity
  stop := c.stop
  tmoOvrEn := c.tmo.isSome
  tmoOvr := c.tmo.getD 0
  settle := c.settle

/-- One cycle's inputs: `rst` = 0 and `src_err` = 0 where not given otherwise. -/
def stimCycle (c : ScriptConfig) (now : BitVec 64) (rxd : Bool) : Inputs := ⟨false, rxd, false, now, c.pins⟩

/-- `n` cycles with one line value. -/
def stimHold (c : ScriptConfig) (now : BitVec 64) (rxd : Bool) (n : Nat) : List Inputs :=
  List.replicate n (stimCycle c now rxd)

/-- The parity bit that passes the check of R44. -/
def goodParity (parity : BitVec 3) (b : Byte) : Bool :=
  if parity = parityEven then xorBits b
  else if parity = parityOdd then !xorBits b
  else if parity = parityMark then true
  else false

/-- The bits of a character before its stop bits, in time order (R43): start, eight data bits least significant first, the parity bit. -/
def charBits (parity : BitVec 3) (b : Byte) (p : Bool) : List Bool :=
  [false] ++ (List.range 8).map b.getLsbD ++ (if parity = parityNone then [] else [p])

/-- The cycles of the stop bits: 1, 1.5 or 2 bit times (R45, R58). -/
def stopCycles (c : ScriptConfig) : Nat :=
  let bd := c.baudDiv.toNat
  if c.stop = 0 then bd else if c.stop = 1 then 3 * bd / 2 else 2 * bd

/-- A character with the given parity bit; `badStop` holds the line at 0 for the first stop-bit time (TXF). -/
def stimChar (c : ScriptConfig) (now : BitVec 64) (b : Byte) (p badStop : Bool) : List Inputs :=
  let bd := c.baudDiv.toNat
  (charBits c.parity b p).flatMap (fun v => stimHold c now v bd)
    ++ (if badStop then stimHold c now false bd ++ stimHold c now true (stopCycles c - bd)
        else stimHold c now true (stopCycles c))

/-- `TX b1 b2 ...`. -/
def stimBytes (c : ScriptConfig) (now : BitVec 64) (bs : Frame) : List Inputs :=
  bs.flatMap fun b => stimChar c now b (goodParity c.parity b) false

/-- The inputs of one statement that takes cycles. -/
def stimExpand (c : ScriptConfig) (now : BitVec 64) : Stim → List Inputs
  | .time _ => []
  | .reset n => List.replicate n { stimCycle c now true with rst := true }
  | .idle n => stimHold c now true n
  | .low n => stimHold c now false n
  | .tx bs => stimBytes c now bs
  | .txp b p => stimChar c now b p false
  | .txf b => stimChar c now b (goodParity c.parity b) true
  | .srcErr => [{ stimCycle c now true with srcErr := true }]
  | .frame bs => stimBytes c now bs ++ stimHold c now true ((silenceThreshold c.pins).toNat + 2)

/-- `TIME t` holds from the next cycle on; another statement leaves the time. -/
def stimTime (now : BitVec 64) : Stim → BitVec 64
  | .time t => t
  | .reset _ | .idle _ | .low _ | .tx _ | .txp _ _ | .txf _ | .srcErr | .frame _ => now

/-- A script's inputs, from the time `now` on. -/
def stimScript (c : ScriptConfig) : BitVec 64 → List Stim → List Inputs
  | _, [] => []
  | now, st :: rest => stimExpand c now st ++ stimScript c (stimTime now st) rest

/-- The machine before its first cycle of a script: no reset has happened, so the script begins with one (70_reset_and_hazards.md R148). -/
def State.withScript (s : State) (inputs : List Inputs) : State :=
  match inputs with
  | [] => s
  | i :: rest => { s with pins := i, script := rest, resetSeen := false }

end Sys2Proof.Machine
end

