-- ==== Sys2Proof/Tests/Slice0.lean ====
section
/-! SUPPORT. The model's own tests: ill-formed operations, words written out from 30_encoding.md, the vectors of 95_test_vectors.md, and a
witness for the hypotheses of each statement. -/

namespace Sys2Proof.Tests

open Sys2Proof Sys2Proof.Machine

/-! ## Ill-formed operations -/

/-- A frame operand has at most 256 bytes (R49). -/
theorem test_illformed_hexFrame : (Instr.hexFrame (List.replicate 257 0)).wf = false := by decide +kernel
theorem test_wellformed_hexFrame : (Instr.hexFrame (List.replicate 256 0)).wf = true := by decide +kernel
/-- TS_MAX is the last time (R115; H17, H18). -/
theorem test_illformed_timestamp : (Instr.timestamp 253402300800000).wf = false := by decide
theorem test_wellformed_timestamp : (Instr.timestamp 253402300799999).wf = true := by decide
theorem test_illformed_line_time : (Instr.line .ok 1 253402300800000 [1]).wf = false := by decide
theorem test_illformed_line_frame : (Instr.line .ok 1 0 (List.replicate 257 0)).wf = false := by decide +kernel

/-! ## Words from the selector tables, written out bit by bit -/

/-- R51: stop, u_state[2:0], hit, rxd_s, last, par_en. -/
theorem test_decode_usel :
    decode (.usel 0b10000000) = .ok [.uStopped]
    ∧ decode (.usel 0b11101111) = .ok [.uStopped]
    ∧ decode (.usel 0b00000100) = .ok [.uIdleWait]
    ∧ decode (.usel 0b00000000) = .ok [.uStartDetect]
    ∧ decode (.usel 0b00010000) = .ok [.uStartCount]
    ∧ decode (.usel 0b00011000) = .ok [.uStartConfirm]
    ∧ decode (.usel 0b00011100) = .ok [.uStartReject]
    ∧ decode (.usel 0b00100000) = .ok [.uDataCount]
    ∧ decode (.usel 0b00101001) = .ok [.uDataSample]
    ∧ decode (.usel 0b00101010) = .ok [.uDataLastNopar]
    ∧ decode (.usel 0b00101011) = .ok [.uDataLastPar]
    ∧ decode (.usel 0b00110000) = .ok [.uParCount]
    ∧ decode (.usel 0b00111000) = .ok [.uParSample]
    ∧ decode (.usel 0b01000000) = .ok [.uStopCount]
    ∧ decode (.usel 0b01001100) = .ok [.uStopSample]
    ∧ decode (.usel 0b01001000) = .ok [.uStopSampleFerr]
    ∧ decode (.usel 0b01010000) = .ok [.uWaitLow]
    ∧ decode (.usel 0b01010100) = .ok [.uWaitRelease] := by decide

/-- R52: stop, c_state[1:0], rx_strobe, hit, full. -/
theorem test_decode_csel :
    decode (.csel 0b100000) = .ok [.cStopped]
    ∧ decode (.csel 0b000000) = .ok [.cSettleWait]
    ∧ decode (.csel 0b000010) = .ok [.cSettleDrain]
    ∧ decode (.csel 0b001000) = .ok [.cIdleWait]
    ∧ decode (.csel 0b001010) = .ok [.cIdleEmptyRead]
    ∧ decode (.csel 0b001110) = .ok [.cIdleFirstByte]
    ∧ decode (.csel 0b010000) = .ok [.cColWait]
    ∧ decode (.csel 0b010010) = .ok [.cColSilenceClose]
    ∧ decode (.csel 0b010110) = .ok [.cColAppend]
    ∧ decode (.csel 0b010111) = .ok [.cColFullClose] := by decide

/-- R53: first, t[0]. -/
theorem test_decode_ksel :
    decode (.ksel 0b00) = .ok [.crcShift]
    ∧ decode (.ksel 0b01) = .ok [.crcShiftXor]
    ∧ decode (.ksel 0b10) = .ok [.crcByteIn, .crcShift]
    ∧ decode (.ksel 0b11) = .ok [.crcByteIn, .crcShiftXor] := by decide

/-- R54: long, crc_ok, exc. -/
theorem test_decode_vsel :
    decode (.vsel 0b000) = .ok [.vShortFrame]
    ∧ decode (.vsel 0b101) = .ok [.vBadCrc]
    ∧ decode (.vsel 0b110) = .ok [.vOk]
    ∧ decode (.vsel 0b111) = .ok [.vException] := by decide

/-- R55: e_state[1:0], qne, short, bit_last, crc_last, line_last. -/
theorem test_decode_esel :
    decode (.esel 0b0000000) = .ok [.eIdleWait]
    ∧ decode (.esel 0b0011000) = .ok [.eDequeueShort]
    ∧ decode (.esel 0b0010000) = .ok [.eDequeueCrc]
    ∧ decode (.esel 0b0100000) = .ok [.eCrcStep]
    ∧ decode (.esel 0b0100100) = .ok [.eCrcNextByte]
    ∧ decode (.esel 0b0100110) = .ok [.eCrcDone]
    ∧ decode (.esel 0b1000000) = .ok [.eClassify]
    ∧ decode (.esel 0b1100000) = .ok [.eLineChar]
    ∧ decode (.esel 0b1100001) = .ok [.eLineLast] := by decide

/-- R57: the words without a row are rejected by name. -/
theorem test_decode_reserved :
    decode (.usel 0x60) = .error (.noRow .uart 0x60) ∧ decode (.usel 0x7F) = .error (.noRow .uart 0x7F)
    ∧ decode (.csel 0x18) = .error (.noRow .collector 0x18) ∧ decode (.csel 0x1F) = .error (.noRow .collector 0x1F) := by decide

/-! ## Vectors -/

/-- T1, T2, T4, T6. -/
theorem test_tmo :
    [4, 8, 58, 16777215].map (fun bd => (silenceThreshold ⟨bd, 0, 0, false, 0, 0⟩).toNat) = [201, 401, 2903, 839699611] := by decide

/-- U5 to U8: `rx_perr` of 00, 0; 00, 1; 01, 0; 01, 1; 03, 0; 03, 1. -/
theorem test_parity :
    [1, 2, 3, 4].map (fun c => [(0, false), (0, true), (1, false), (1, true), (3, false), (3, true)].map fun x : Byte × Bool =>
      parityError c x.1 x.2)
      = [[false, true, true, false, false, true], [true, false, false, true, true, false],
         [true, false, true, false, true, false], [false, true, false, true, false, true]] := by decide

/-- K1, K4, K6, K9. -/
theorem test_crc :
    crc16 [0x01, 0x03, 0x50, 0x00, 0x00, 0x04] = 0x0955 ∧ crc16 [0x00] = 0x40BF ∧ crc16 [0x01, 0x83, 0x02] = 0xF1C0
    ∧ crc16 [0x31, 0x32, 0x33, 0x34, 0x35, 0x36, 0x37, 0x38, 0x39] = 0x4B37 := by decide +kernel

/-- K13: the eight bit steps of byte 0x01 from 0xFFFF. -/
theorem test_crc_trace :
    (List.range 8).map (fun k => crcBits (k + 1) 0xFFFE)
      = [0x7FFF, 0x9FFE, 0x4FFF, 0x87FE, 0x43FF, 0x81FE, 0x40FF, 0x807E] := by decide

/-- V4, V5, V6, V7, V10, V12. -/
theorem test_validate :
    validate [] 7 = ⟨.shortFrame, 0, 0, 0, 0, 7⟩
    ∧ validate [0x01, 0x03, 0x50, 0x00, 0x00, 0x04, 0x00, 0x00] 7 = ⟨.badCrc, 0, 0, 0, 8, 7⟩
    ∧ validate [0x01, 0x03, 0x50, 0x00, 0x00, 0x04, 0x55, 0x09] 7 = ⟨.ok, 1, 3, 0, 8, 7⟩
    ∧ validate [0x01, 0x80, 0x02, 0xC0, 0x01] 7 = ⟨.ok, 1, 0x80, 0, 5, 7⟩
    ∧ validate [0x01, 0x83, 0x02, 0xC0, 0xF1] 7 = ⟨.exception, 1, 0x83, 2, 5, 7⟩
    ∧ validate [0x01, 0x83, 0x02, 0xF1, 0xC0] 7 = ⟨.badCrc, 0, 0, 0, 5, 7⟩ := by decide +kernel

/-- H1, H2, H3. -/
theorem test_hex :
    [0x00, 0x0F, 0xAB, 0xFF].map hexByteText
      = [ascii ['0', '0'], ascii ['0', 'F'], ascii ['A', 'B'], ascii ['F', 'F']]
    ∧ hexFrameText [0x01, 0x03, 0x50, 0x00, 0x00, 0x04, 0x55, 0x09] = ascii "01-03-50-00-00-04-55-09".toList
    ∧ hexFrameText [0xAB] = ascii ['A', 'B'] := by decide

/-- H5. -/
theorem test_dec :
    [0, 9, 10, 99, 100, 255].map decU8Text
      = [ascii ['0'], ascii ['9'], ascii ['1', '0'], ascii ['9', '9'], ascii ['1', '0', '0'], ascii ['2', '5', '5']] := by decide

/-- H6, H7, H8. -/
theorem test_civil :
    [0, -1, 10957, 11016, 11017, 47540, 47541, 2932896].map civilFromDays
      = [(1970, 1, 1), (1969, 12, 31), (2000, 1, 1), (2000, 2, 29), (2000, 3, 1), (2100, 2, 28), (2100, 3, 1), (9999, 12, 31)] := by
  decide

/-- H11, H14, H17. -/
theorem test_timestamp :
    timestampText 86399999 = ascii "1970-01-01T23:59:59.999".toList
    ∧ timestampText 1446744687977 = ascii "2015-11-05T17:31:27.977".toList
    ∧ timestampText 253402300799999 = ascii "9999-12-31T23:59:59.999".toList := by decide

/-- H18. -/
theorem test_timestamp_refused : exec (.timestamp 253402300800000) .reset = .refused (.timestampOutOfRange 253402300800000) := rfl

/-- H21, H19. -/
theorem test_line :
    lineText .ok 1 1446744687977 [0x01, 0x03, 0x50, 0x00, 0x00, 0x04, 0x55, 0x09]
      = ascii "DATE=2015-11-05T17:31:27.977;ERR=NO;FRAME=01-03-50-00-00-04-55-09;SLAVE=1\n".toList
    ∧ lineText .shortFrame 0 1446744687977 [0x01, 0x83, 0x02]
      = ascii "DATE=2015-11-05T17:31:27.977;ERR=SHORT_FRAME;FRAME=01-83-02;SLAVE=0\n".toList := by decide

/-- R58: the cycles of a character at 8N1 and bd = 4 are 40, and with 1.5 stop bits 42; and a script's first cycle is a reset. -/
theorem test_script :
    (stimChar ⟨4, 0, 0, none, 0⟩ 0 0x55 false false).length = 40 ∧ (stimChar ⟨4, 0, 1, none, 0⟩ 0 0x55 false false).length = 42
    ∧ (stimScript ⟨4, 0, 0, none, 0⟩ 0 [.reset 1, .idle 3]).map Inputs.rst = [true, false, false, false] := by decide

/-- An output cycle of a line: `rec_valid`, `line_char`, `line_last`. -/
def outChar (first : Bool) (ch : Byte) (last : Bool) : Outputs :=
  { Outputs.zero with lineValid := true, recValid := first, lineChar := ch, lineLast := last }

/-- R145: two lines, an idle cycle before the second; a line that a reset cuts (R149 (d)) is none. -/
theorem test_linesOf :
    linesOf [outChar true 0x44 false, outChar false 0x0A true, .zero, outChar true 0x45 true] = [[0x44, 0x0A], [0x45]]
    ∧ linesOf [outChar true 0x44 false, .zero, outChar true 0x45 false, outChar false 0x0A true] = [[0x45, 0x0A]] := by decide

/-! ## Small states -/

/-- The state that a step leaves, the same state where it leaves none. -/
def after (s : State) : State :=
  match step s with
  | .next t => t
  | .fault _ => s
  | .refused _ => s

/-- A state in a reset cycle. -/
def sRst : State := { State.reset with pins := { Inputs.default with rst := true } }

/-- A state whose reset cycle is followed by another. -/
def sRst2 : State := { sRst with script := [{ Inputs.default with rst := true }] }

/-- A state whose latched configuration has parity code 5. -/
def sIllegal : State := { State.reset with cfg := { State.reset.cfg with parity := 5 } }

/-- The receiver in a state with a count and a bit index, the line as given. -/
def sUart (st : UState) (cnt : BitVec 24) (bit : BitVec 3) (line : Bool) : State :=
  { State.reset with
    uart := { Uart.reset with state := st, cnt := cnt, bit := bit, shift := 0x02, sync2 := line }
    sig := { Signals.quiet with rxdS := line } }

/-- The collector in a state with a timer and a length, with a strobed byte or none. -/
def sCol (st : CState) (timer : BitVec 32) (len : BitVec 9) (strobe : Bool) : State :=
  { State.reset with
    col := { state := st, timer := timer, len := len, buf := [(0, 0x11)] }
    sig := { Signals.quiet with rx := ⟨strobe, 0x5A, false, false⟩ } }

/-- One frame of length `len` at the head: `01 83 02 C0 F1`. -/
def sHead (len : BitVec 9) : State :=
  { State.reset with
    q := { Queue.reset with e0 := ⟨len, 7, [(0, 0x01), (1, 0x83), (2, 0x02), (3, 0xC0), (4, 0xF1)]⟩, count := 1 } }

/-- The emitter in a state over that frame. -/
def sEm (len : BitVec 9) (e : Emitter) : State := { sHead len with em := e }

/-- The emitter at the head frame's last two characters: its line is formed, `e_lidx` as given. -/
def sLine (lidx : BitVec 10) : State :=
  { sHead 3 with
    em := { Emitter.reset with
      state := .line, lidx := lidx, line := lineText .shortFrame 0 7 [0x01, 0x83, 0x02] }
    record := ⟨.shortFrame, 0, 0, 0, 3, 7⟩ }

/-- A push request, with a pop or without, over a queue of two. -/
def sPush (count : BitVec 2) (pop : Bool) (bytes : Frame) : State :=
  { sHead 5 with
    q := { (sHead 5).q with e1 := ⟨1, 8, [(0, 0x22)]⟩, count := count }
    sig := { Signals.quiet with pop := pop, push := some ⟨bytes, 9⟩ } }

/-- A state after the fatal stop with nothing left to output. -/
def sHalted : State :=
  { State.reset with
    flags := { Flags.reset with fatal := true }
    uart := { Uart.reset with state := .halt }
    col := { Collector.reset with state := .halt } }

/-! ## Single operations -/

/-- R70: a 1 enters at bit 7. -/
theorem test_uDataSample : exec .uDataSample (sUart .data 5000 3 true) =
    .next { sUart .data 5000 3 true with
      uart := { (sUart .data 5000 3 true).uart with shift := 0x81, cnt := 1, bit := 4 } } := rfl

/-- R76: the byte is delivered with a framing error, and the flag sticks. -/
theorem test_uStopSampleFerr :
    ∃ t, exec .uStopSampleFerr (sUart .stop 5000 7 false) = .next t
      ∧ t.sig.rx = ⟨true, 0x02, false, true⟩ ∧ t.flags.ferr = true ∧ t.uart.state = .waitIdle := ⟨_, rfl, by decide⟩

/-- R90: the byte is stored at `c_len`. -/
theorem test_cColAppend :
    ∃ t, exec .cColAppend (sCol .collect 9 1 true) = .next t ∧ t.col = ⟨.collect, 0, 2, [(0, 0x11), (1, 0x5A)]⟩ :=
  ⟨_, rfl, by decide⟩

/-- R89, R81: the close carries the bytes and the time, and the buffer keeps its content. -/
theorem test_cColSilenceClose :
    ∃ t, exec .cColSilenceClose (sCol .collect 9 1 false) = .next t
      ∧ t.sig.push = some ⟨[0x11], 0⟩ ∧ t.col = ⟨.idle, 0, 0, [(0, 0x11)]⟩ := ⟨_, rfl, by decide⟩

/-- K13 in the emitter: byte 0x01 enters at the first bit step, 0x7FFF results. -/
theorem test_eCrcStep :
    ∃ t, exec .eCrcStep (sEm 5 { Emitter.reset with state := .crc, crc := 0xFFFF }) = .next t
      ∧ t.em.crc = 0x7FFF ∧ t.em.bit = 1 ∧ t.sig.t = 0xFFFE := ⟨_, rfl, by decide⟩

/-- V10 and V2 in the emitter. -/
theorem test_eClassify :
    (∃ t, exec .eClassify (sEm 5 { Emitter.reset with state := .classify, crc := 0xF1C0 }) = .next t
      ∧ t.record = ⟨.exception, 1, 0x83, 2, 5, 7⟩ ∧ t.em.state = .line ∧ t.em.line.length = 72)
    ∧ (∃ t, exec .eClassify (sEm 3 { Emitter.reset with state := .classify }) = .next t
      ∧ t.record = ⟨.shortFrame, 0, 0, 0, 3, 7⟩ ∧ t.em.line.length = 68) :=
  ⟨⟨_, rfl, by decide +kernel⟩, ⟨_, rfl, by decide +kernel⟩⟩

/-- E5: a pop and a push with two frames queued both succeed. -/
theorem test_queueCommit_both :
    ∃ t, exec .queueCommit (sPush 2 true [0x33]) = .next t ∧ t.q.count = 2 ∧ t.q.head = 1 ∧ t.q.e0.len = 1
      ∧ memRead t.q.e0.bytes 0 = 0x33 ∧ memRead t.q.e0.bytes 1 = 0x83 := ⟨_, rfl, by decide⟩

/-- E6: a push to a full queue is dropped, flagged and recorded. -/
theorem test_queueCommit_overrun :
    ∃ t, exec .queueCommit (sPush 2 false [0x33]) = .next t
      ∧ t.q = (sPush 2 false []).q ∧ t.flags.overrun = true ∧ t.faults = [.overrun 1 9] := ⟨_, rfl, by decide⟩

/-- X1: the fatal stop takes effect in the cycle of `src_err`; the partial frame is lost. -/
theorem test_fatal :
    (let t := after { sCol .collect 9 1 false with pins := { Inputs.default with srcErr := true } }
     t.flags.fatal = true ∧ t.uart.state = .halt ∧ t.col = ⟨.halt, 0, 0, [(0, 0x11)]⟩) := by decide

/-- The conditions that a table word stands for select its operation in the very next cycle: U_STOP_SAMPLE delivers a byte. -/
theorem test_withFetchWord : (after (State.reset.withFetchWord 8 0x4C)).sig.rx.strobe = true := by decide

/-! ## Witnesses: the hypotheses of the statements can be met -/

theorem test_witness_reset : ∃ s : State, s.pins.rst = true := ⟨sRst, by decide⟩

theorem test_witness_step_reset : ∃ s t : State, step s = .next t ∧ s.pins.rst = true := ⟨sRst, after sRst, rfl, by decide⟩

theorem test_witness_step_running : ∃ s t : State, step s = .next t ∧ s.pins.rst = false :=
  ⟨.reset, after .reset, rfl, by decide⟩

theorem test_witness_SilenceThresholdIsExact :
    (∃ s : State, s.pins.rst = true ∧ s.pins.cfg.tmoOvrEn = true) ∧ (∃ s : State, s.pins.rst = true ∧ s.pins.cfg.tmoOvrEn = false) :=
  ⟨⟨{ sRst with pins := { sRst.pins with cfg := { CfgPins.default with tmoOvrEn := true } } }, by decide⟩, ⟨sRst, by decide⟩⟩

theorem test_witness_IllegalConfigurationIsRefused :
    (∃ s : State, s.pins.rst = false ∧ s.resetSeen = true ∧ step s = .refused .illegalConfiguration)
    ∧ (∃ s : State, s.pins.rst = false ∧ s.resetSeen = true ∧ s.cfg.baudDiv.toNat = 4 ∧ ∃ t, step s = .next t) :=
  ⟨⟨sIllegal, by decide, by decide, rfl⟩,
   ⟨{ State.reset with cfg := { State.reset.cfg with baudDiv := 4 } }, by decide, by decide, by decide,
    after { State.reset with cfg := { State.reset.cfg with baudDiv := 4 } }, rfl⟩⟩

theorem test_witness_RunWithoutResetIsRefused :
    (∃ s : State, s.resetSeen = false ∧ s.pins.rst = false) ∧ (∃ s : State, s.resetSeen = false ∧ s.pins.rst = true) :=
  ⟨⟨{ State.reset with resetSeen := false }, by decide⟩, ⟨{ sRst with resetSeen := false }, by decide⟩⟩

theorem test_witness_LongerResetChangesOnlyConfiguration :
    ∃ s t : State, s.pins.rst = true ∧ step s = .next t ∧ t.pins.rst = true := ⟨sRst2, after sRst2, by decide, rfl, by decide⟩

theorem test_witness_EncodingAndDecodingAgree :
    (∃ (i : Instr) (free : BitVec 8) (sel : Selector), i.wf = true ∧ encode i free = some sel ∧ sel.engine ≠ .crc)
    ∧ (∃ (i : Instr) (free : BitVec 8) (sel : Selector), i.wf = true ∧ encode i free = some sel ∧ sel.engine = .crc)
    ∧ (∃ (sel : Selector) (ops : List Instr) (i : Instr), decode sel = .ok ops ∧ i ∈ ops) :=
  ⟨⟨.cColAppend, 0xFF, .csel 0x16, by decide⟩, ⟨.crcByteIn, 0, .ksel 2, by decide⟩,
   ⟨.ksel 3, [.crcByteIn, .crcShiftXor], .crcShiftXor, by decide⟩⟩

theorem test_witness_ReservedSelectorsFault :
    (∃ sel : Selector, sel.engine ≠ .uart ∧ sel.engine ≠ .collector)
    ∧ (∀ st ∈ [UState.halt, .reserved], ∃ s : State, s.sig.stop = false ∧ s.uart.state = st)
    ∧ (∃ s : State, s.sig.stop = false ∧ s.col.state = .halt)
    ∧ (∀ st ∈ [UState.halt, .reserved], ∃ s t : State, s.pins.rst = false ∧ s.flags.fatal = false ∧ s.pins.srcErr = false
      ∧ step s = .next t ∧ s.uart.state = st)
    ∧ (∃ s t : State, s.pins.rst = false ∧ s.flags.fatal = false ∧ s.pins.srcErr = false ∧ step s = .next t
      ∧ s.uart.state ≠ .halt ∧ s.uart.state ≠ .reserved ∧ s.col.state = .halt) :=
  ⟨⟨.esel 0x7F, by decide⟩, fun st _ => ⟨sUart st 0 0 true, rfl, rfl⟩, ⟨sCol .halt 0 0 false, by decide⟩,
   fun st h => ⟨sUart st 0 0 true, after (sUart st 0 0 true), rfl, rfl, rfl, by fin_cases h <;> rfl, rfl⟩,
   ⟨sCol .halt 0 0 false, after (sCol .halt 0 0 false), by decide, by decide, by decide, rfl, by decide, by decide, by decide⟩⟩

/-- R57, R137: U_HALT without `stop` (USEL 0x64: u_state 6, rxd_s 1) is recorded; the synchronizer shifts, and the settle cycle goes on. -/
theorem test_unreachable :
    (let t := after (sUart .halt 0 0 true)
     t.faults = [.unreachable .uart 0x64] ∧ t.uart.state = .halt ∧ t.col.state = .idle) := by decide

/-- The settle cycle 0 of a run from reset: U_IDLE_WAIT, C_SETTLE_DRAIN (settle time 0), E_IDLE_WAIT. -/
theorem test_witness_StepRunsTheDecodedOperations :
    ∃ (s s0 s1 s2 s3 s4 : State) (iu ic ie : Instr),
      s.pins.rst = false ∧ s.resetSeen = true ∧ cfgLegal s.cfg = true
      ∧ exec .fatalEntry { s with sig := { Signals.quiet with out := outputs s } } = .next s0
      ∧ (let a := { s0 with
            sig := { s0.sig with rxdS := s0.uart.sync2 }
            uart := { s0.uart with sync2 := s0.uart.sync1, sync1 := s0.pins.rxd } }
         decode (.usel (usel a)) = .ok [iu] ∧ exec iu a = .next s1)
      ∧ (let b := { s1 with sig := { s1.sig with pop := popRequest s1 } }
         decode (.csel (csel b)) = .ok [ic] ∧ exec ic b = .next s2)
      ∧ (decode (.esel (esel s2)) = .ok [ie] ∧ exec ie s2 = .next s3)
      ∧ exec .queueCommit s3 = .next s4 :=
  let s0 := fatalEntry (beginCycle .reset)
  let s1 := uartEnd (sampleLine s0).uart .quiet (sampleLine s0)
  let s2 := colEnd { s1.col with state := .idle, timer := 0 } none (popPart s1)
  ⟨.reset, s0, s1, s2, s2, s2.setQ s2.q, .uIdleWait, .cSettleDrain, .eIdleWait,
   by decide, by decide, by decide, rfl, ⟨by decide, rfl⟩, ⟨by decide, rfl⟩, ⟨by decide, rfl⟩, rfl⟩

theorem test_witness_LineIsSampledTwoCyclesLate :
    (∃ s t u v : State, s.pins.rst = false ∧ t.pins.rst = false ∧ u.pins.rst = false
      ∧ step s = .next t ∧ step t = .next u ∧ step u = .next v)
    ∧ (∃ s t u v : State, s.pins.rst = true ∧ t.pins.rst = false ∧ u.pins.rst = false
      ∧ step s = .next t ∧ step t = .next u ∧ step u = .next v) :=
  ⟨⟨.reset, after .reset, after (after .reset), after (after (after .reset)), by decide, by decide, by decide, rfl, rfl, rfl⟩,
   ⟨sRst, after sRst, after (after sRst), after (after (after sRst)), by decide, by decide, by decide, rfl, rfl, rfl⟩⟩

/-- The receiver's selectors: bd = 5000, so the start bit is sampled at 2500, and the other bits at 5000; one cycle before, it counts. -/
theorem test_witness_uart_selectors :
    [(sUart .idle 0 0 true), (sUart .idle 0 0 false), (sUart .start 2499 0 true), (sUart .start 2500 0 false), (sUart .start 2500 0 true),
      (sUart .data 4999 7 true), (sUart .data 5000 6 true), (sUart .data 5000 7 true), (sUart .parity 4999 7 true),
      (sUart .parity 5000 7 true), (sUart .stop 4999 7 true), (sUart .stop 5000 7 true), (sUart .stop 5000 7 false),
      (sUart .waitIdle 5000 7 false), (sUart .waitIdle 5000 7 true)].map (fun s => (s.sig.stop, decode (.usel (usel s))))
    = [Instr.uIdleWait, .uStartDetect, .uStartCount, .uStartConfirm, .uStartReject, .uDataCount, .uDataSample, .uDataLastNopar,
        .uParCount, .uParSample, .uStopCount, .uStopSample, .uStopSampleFerr, .uWaitLow, .uWaitRelease].map
        (fun i => (false, Except.ok [i])) := by decide

/-- The last data bit with parity. -/
theorem test_witness_uart_parity :
    ∃ s : State, s.sig.stop = false ∧ s.uart.state = .data ∧ s.uart.cnt = s.cfg.baudDiv ∧ s.uart.bit = 7 ∧ s.cfg.parity ≠ 0 :=
  ⟨{ sUart .data 5000 7 true with cfg := { State.reset.cfg with parity := 1 } }, by decide⟩

theorem test_witness_StrobeOnlyAtStopSample :
    ∃ s t : State, s.pins.rst = false ∧ step s = .next t ∧ t.sig.rx.strobe = true :=
  ⟨sUart .stop 5000 7 true, after (sUart .stop 5000 7 true), by decide, rfl, by decide⟩

theorem test_witness_StopCodeHasNoEffect :
    ∃ (s t : State) (x : BitVec 2), s.pins.rst = false ∧ x ≠ 3 ∧ x ≠ s.cfg.stop ∧ step s = .next t :=
  ⟨.reset, after .reset, 2, by decide, by decide, by decide, rfl⟩

/-- The collector's selectors: settle time 0, TMO = 250250. -/
theorem test_witness_collector_selectors :
    [(sCol .settle 1 0 false), (sCol .settle 0 0 true), (sCol .idle 250248 0 false), (sCol .idle 250249 0 false),
      (sCol .idle 250249 0 true), (sCol .collect 250248 1 false), (sCol .collect 250249 1 false), (sCol .collect 250249 254 true),
      (sCol .collect 0 255 true)].map (fun s => (s.sig.stop, decode (.csel (csel s))))
    = [Instr.cSettleWait, .cSettleDrain, .cIdleWait, .cIdleEmptyRead, .cIdleFirstByte, .cColWait, .cColSilenceClose, .cColAppend,
        .cColFullClose].map (fun i => (false, Except.ok [i])) := by decide

theorem test_witness_SettleHappensOnce : ∃ s t : State, s.pins.rst = false ∧ s.col.state ≠ .settle ∧ step s = .next t :=
  ⟨sCol .idle 250249 0 false, after (sCol .idle 250249 0 false), by decide, by decide, rfl⟩

theorem test_witness_StoppedOperationsHalt : ∃ s : State, s.sig.stop = true :=
  ⟨{ State.reset with sig := { Signals.quiet with stop := true } }, by decide⟩

theorem test_witness_collector_storage :
    (∃ s : State, s.col.buf.wf = true ∧ s.col.len.toNat ≤ 255) ∧ (∃ s : State, s.col.buf.wf = true ∧ s.col.len.toNat = 255)
    ∧ (∃ s : State, s.col.len.toNat < 255) ∧ (∃ s : State, s.col.len.toNat = 256) :=
  ⟨⟨sCol .collect 0 1 true, by decide⟩, ⟨sCol .collect 0 255 true, by decide⟩, ⟨sCol .collect 0 254 true, by decide⟩,
   ⟨sCol .collect 0 256 false, by decide⟩⟩

/-- Each clause at its boundary: `c_len` 256, a head frame of 257 bytes, a push of 257 bytes with room and without. -/
theorem test_witness_ByteIndexIsEightBits :
    (∃ s : State, s.col.buf.wf = true ∧ s.col.len.toNat = 256)
    ∧ (∃ s : State, 256 < (headFrame s).length)
    ∧ (∀ pop ∈ [true, false], ∃ (s : State) (p : Push), s.sig.push = some p ∧ p.bytes.length = 257 ∧ s.sig.pop = pop
      ∧ s.q.count = 2 ∧ s.q.e0.bytes.wf = true ∧ s.q.e1.bytes.wf = true) :=
  ⟨⟨sCol .collect 0 256 true, by decide⟩, ⟨sHead 257, by decide +kernel⟩,
   fun pop _ => ⟨sPush 2 pop (List.replicate 257 0), ⟨List.replicate 257 0, 9⟩, rfl, by decide +kernel, rfl, rfl,
    by cases pop <;> decide, by cases pop <;> decide⟩⟩

/-- R28: byte 256 is byte 0 of the array. -/
theorem test_byteIndex :
    ∃ t, exec .cColAppend (sCol .collect 9 256 true) = .next t ∧ t.col = ⟨.collect, 0, 257, [(0, 0x5A)]⟩ := ⟨_, rfl, by decide⟩

theorem test_witness_BoundariesIgnoreByteContent : ∃ s t : State, collectorPart s = .next t ∧ t.sig.push.isSome = true :=
  ⟨sCol .collect 250249 1 false, (sCol .collect 250249 1 false).setCol ⟨.idle, 0, 0, [(0, 0x11)]⟩ |>.setSig
    { Signals.quiet with rx := ⟨false, 0x5A, false, false⟩, push := some ⟨[0x11], 0⟩ }, rfl, rfl⟩

theorem test_witness_EightBitStepsProcessOneByte : ∃ s : State, s.em.bit = 0 ∧ s.em.state = .crc :=
  ⟨sEm 5 { Emitter.reset with state := .crc, crc := 0xFFFF }, by decide⟩

/-- Each clause of VALIDATE at its boundary: 4 and 5 bytes, function codes 0x80 and 0x81, a wrong CRC. -/
theorem test_witness_ValidateTestableProperties :
    (∃ f : Frame, f.length = 4)
    ∧ (∃ f : Frame, f.length = 5 ∧ frameReceivedCrc f = crc16 (payload f) ∧ (f.getD 1 0).toNat = 0x80)
    ∧ (∃ f : Frame, f.length = 5 ∧ frameReceivedCrc f = crc16 (payload f) ∧ (f.getD 1 0).toNat = 0x81)
    ∧ (∃ f : Frame, f.length = 5 ∧ frameReceivedCrc f ≠ crc16 (payload f))
    ∧ (∃ f : Frame, (validate f 0).exc ≠ 0 ∧ (validate f 0).slave ≠ 0) :=
  ⟨⟨[1, 2, 3, 4], by decide +kernel⟩, ⟨[0x01, 0x80, 0x02, 0xC0, 0x01], by decide +kernel⟩, ⟨[0xF7, 0x81, 0x01, 0x61, 0xA2], by decide +kernel⟩,
   ⟨[0x01, 0x83, 0x02, 0xF1, 0xC0], by decide +kernel⟩, ⟨[0x01, 0x83, 0x02, 0xC0, 0xF1], by decide +kernel⟩⟩

theorem test_witness_ClassifyFormsRecordAndLine :
    (∃ s : State, s.q.headEntry.len.toNat = 5 ∧ s.em.crc = crc16 (payload (headFrame s)) ∧ s.q.headEntry.ts.toNat ≤ 253402300799999)
    ∧ (∃ s : State, s.q.headEntry.len.toNat = 4 ∧ 253402300799999 < s.q.headEntry.ts.toNat) :=
  ⟨⟨sEm 5 { Emitter.reset with state := .classify, crc := 0xF1C0 }, by decide +kernel⟩,
   ⟨{ sHead 4 with q := { (sHead 4).q with e0 := ⟨4, 253402300800000, []⟩ } }, by decide⟩⟩

theorem test_witness_HexFrameIsDashJoined : ∃ (f : Frame) (i : Nat), i < f.length ∧ i + 1 < f.length :=
  ⟨[0x01, 0xAB], 0, by decide⟩

theorem test_witness_TimestampIsIsoText :
    (∃ ts : BitVec 64, ts.toNat = 253402300799999) ∧ (∃ ts : BitVec 64, 253402300799999 < ts.toNat) :=
  ⟨⟨253402300799999, by decide⟩, ⟨253402300800000, by decide⟩⟩

theorem test_witness_LineLengthsAreBounded : ∃ f : Frame, 1 ≤ f.length ∧ f.length ≤ 256 := ⟨[0xAB], by decide⟩

/-- H25, H27: both ends of the range are met. -/
theorem test_line_lengths :
    (lineText .shortFrame 0 1446744687977 [0xAB]).length = 62
    ∧ (lineText .exception 247 1446744687977 (List.replicate 256 0)).length = 827 := by decide +kernel

/-- The emitter's selectors. -/
theorem test_witness_emitter_selectors :
    [State.reset, sHead 4, sHead 5, sEm 5 { Emitter.reset with state := .crc, bit := 6 },
      sEm 5 { Emitter.reset with state := .crc, bit := 7, idx := 1 }, sEm 5 { Emitter.reset with state := .crc, bit := 7, idx := 2 },
      sEm 5 { Emitter.reset with state := .classify },
      sLine 66, sLine 67].map (fun s => decode (.esel (esel s)))
    = [Instr.eIdleWait, .eDequeueShort, .eDequeueCrc, .eCrcStep, .eCrcNextByte, .eCrcDone, .eClassify, .eLineChar, .eLineLast].map
        (fun i => Except.ok [i]) := by decide

theorem test_witness_EmitterOutputsTheLine : ∃ (s : State) (c : Byte), s.em.line[s.em.lidx.toNat]? = some c :=
  ⟨sLine 67, 0x0A, by decide⟩

theorem test_witness_OutputsAreMoore :
    (∃ s t : State, step s = .next t ∧ s.pins.rst = false ∧ s.em.state = .line ∧ s.em.line[s.em.lidx.toNat]? = some 0x0A
      ∧ t.sig.out.lineLast = true)
    ∧ (∃ s t : State, step s = .next t ∧ s.pins.rst = false ∧ s.em.state ≠ .line) :=
  ⟨⟨sLine 67, after (sLine 67), rfl, by decide, by decide, by decide, by decide⟩, ⟨.reset, after .reset, rfl, by decide, by decide⟩⟩

theorem test_witness_RecordWrittenOnlyInClassify :
    ∃ s t : State, s.pins.rst = false ∧ s.em.state ≠ .classify ∧ step s = .next t :=
  ⟨sLine 0, after (sLine 0), by decide, by decide, rfl⟩

/-- Each clause of QUEUE_COMMIT: nothing pushed; a full queue after the pop; one entry free after it. -/
theorem test_witness_QueueCommitPopsThenPushes :
    (∃ s : State, s.sig.push = none)
    ∧ (∃ (s : State) (p : Push), s.sig.push = some p ∧ p.bytes.length = 256 ∧ s.sig.pop = false ∧ s.q.count.toNat = 2)
    ∧ (∃ (s : State) (p : Push), s.sig.push = some p ∧ p.bytes.length = 256 ∧ s.sig.pop = true ∧ s.q.count.toNat = 2
        ∧ s.q.e0.bytes.wf = true ∧ s.q.e1.bytes.wf = true) :=
  ⟨⟨.reset, by decide⟩,
   ⟨sPush 2 false (List.replicate 256 1), ⟨List.replicate 256 1, 9⟩, rfl, by decide +kernel, by decide +kernel, by decide +kernel⟩,
   ⟨sPush 2 true (List.replicate 256 1), ⟨List.replicate 256 1, 9⟩, rfl, by decide +kernel, by decide +kernel, by decide +kernel, by decide +kernel, by decide +kernel⟩⟩

theorem test_witness_PushAndPopShareTheQueueSafely :
    (∃ s t : State, 1 ≤ s.q.count.toNat ∧ s.sig.pop = false ∧ exec .queueCommit s = .next t ∧ t.q.count.toNat = 2)
    ∧ (∃ (s : State) (p : Push), s.q.count = 2 ∧ s.sig.pop = true ∧ s.sig.push = some p) :=
  ⟨⟨sPush 1 false [0x33],
    (sPush 1 false [0x33]).setQ { (sPush 1 false []).q with e1 := ⟨1, 9, [(0, 0x33)]⟩, count := 2 }, by decide, by decide, rfl, by decide⟩,
   ⟨sPush 2 true [0x33], ⟨[0x33], 9⟩, by decide, by decide, rfl⟩⟩

theorem test_witness_FatalStopHoldsUntilReset :
    (∃ s t : State, s.pins.rst = false ∧ s.pins.srcErr = true ∧ s.flags.fatal = false ∧ step s = .next t)
    ∧ (∃ s t : State, s.pins.rst = false ∧ s.flags.fatal = true ∧ step s = .next t) :=
  ⟨⟨{ State.reset with pins := { Inputs.default with srcErr := true } },
    after { State.reset with pins := { Inputs.default with srcErr := true } }, by decide, by decide, by decide, rfl⟩,
   ⟨sHalted, after sHalted, by decide, by decide, rfl⟩⟩

theorem test_witness_FlagsAreSticky :
    (∃ s t : State, s.pins.rst = false ∧ step s = .next t ∧ s.flags = ⟨true, true, true, true⟩)
    ∧ (∃ s t : State, step s = .next t ∧ ¬ ValidFinal s) :=
  ⟨⟨{ State.reset with flags := ⟨true, true, true, true⟩ }, after { State.reset with flags := ⟨true, true, true, true⟩ }, by decide, rfl,
    by decide⟩,
   ⟨{ State.reset with faults := [.overrun 1 9] }, after { State.reset with faults := [.overrun 1 9] }, rfl, by decide⟩⟩

theorem test_witness_HaltedOutputsStayConstant :
    ∃ s t : State, s.pins.rst = false ∧ (outputs s).halted = true ∧ step s = .next t ∧ t.pins.rst = false :=
  ⟨sHalted, after sHalted, by decide, by decide, rfl, by decide⟩

theorem test_witness_StepKeepsFramesCanonical : ∃ s t : State, FramesCanonical s ∧ step s = .next t :=
  ⟨sCol .collect 0 1 false, after (sCol .collect 0 1 false), ⟨by decide, by decide, by decide⟩, rfl⟩

/-- The invariant is met while a line goes out: its first character, and its last. -/
theorem test_witness_RunInv : ∀ lidx ∈ [(0 : BitVec 10), 67], RunInv (sLine lidx) := by
  intro lidx h
  fin_cases h <;>
  exact
  { frames := ⟨by decide, by decide, by decide⟩
    tmo := by rw [TmoDerived]; decide
    uart := by show (0 : Nat) ≤ 5000; decide
    col := by show (0 : Nat) ≤ 0 ∧ (0 : BitVec 9) = 0; decide
    queue := ⟨by decide, fun _ => ⟨by decide, by decide⟩, fun h => absurd h (by decide)⟩
    em := ⟨by decide, by decide, by decide, by decide, by decide⟩
    resetSeen := rfl }

theorem test_witness_StepKeepsTheRunInvariant : ∃ s t : State, RunInv s ∧ step s = .next t :=
  ⟨sLine 67, after (sLine 67), test_witness_RunInv 67 (by decide), rfl⟩

/-- The three refusals. -/
theorem test_witness_FaultsAndRefusalsAreTheListedOnes :
    step sIllegal = .refused .illegalConfiguration
    ∧ step { sEm 4 { Emitter.reset with state := .classify } with
        q := { (sHead 4).q with e0 := ⟨4, 253402300800000, []⟩ } } = .refused (.timestampOutOfRange 253402300800000)
    ∧ step { State.reset with resetSeen := false } = .refused .noReset := ⟨rfl, rfl, rfl⟩

theorem test_witness_LegalRunsGoOn :
    ∃ s : State, (s.pins.rst = true ∨ (s.resetSeen = true ∧ cfgLegal s.cfg = true))
      ∧ (s.em.state = .classify → s.q.headEntry.ts.toNat ≤ 253402300799999) :=
  ⟨sEm 5 { Emitter.reset with state := .classify }, Or.inr (by decide), fun _ => by decide⟩

theorem test_witness_OutputCharactersAreTheRecordsLine :
    (∃ s : State, RunInv s ∧ s.pins.rst = false ∧ s.em.state = .line)
    ∧ (∃ s : State, RunInv s ∧ cfgLegal s.cfg = true ∧ s.em.state = .line ∧ s.em.lidx = 0 ∧ s.pins.rst = false
      ∧ ∀ i ∈ s.script, i.rst = false) :=
  ⟨⟨sLine 67, test_witness_RunInv 67 (by decide), by decide, by decide⟩,
   ⟨sLine 0, test_witness_RunInv 0 (by decide), by decide, by decide, by decide, by decide, by decide⟩⟩

end Sys2Proof.Tests
end

section
/-! SUPPORT. The configuration registers (10_state.md R15, R16): a reset cycle latches them, no part of a running cycle writes them. -/

namespace Sys2Proof.Machine

/-! ## A reset cycle -/

@[simp] theorem resetCycle_cfg (s : State) : (resetCycle s).cfg = .latch s.pins.cfg := rfl

/-- A cycle with `rst` = 1 goes on from every state (60_exceptions.md R138). -/
theorem step_of_rst {s : State} (h : s.pins.rst = true) : step s = .next (endCycle (resetCycle s)) := by
  simp only [step, clockEdge, h, if_true]

/-! ## The parts of a running cycle leave the configuration registers alone -/

theorem uartPart_cfg {s t : State} (hx : s.sig.rx = .quiet) (h : uartPart s = .next t) : t.cfg = s.cfg := by
  obtain ⟨_, _, _, _, _, _, _, -, rfl⟩ := uartPart_effect hx h
  rfl

theorem collectorPart_cfg {s t : State} (h : collectorPart s = .next t) : t.cfg = s.cfg := by
  obtain ⟨c, p, rfl⟩ | ⟨w, rfl⟩ := collectorPart_effect h
  · exact colEnd_cfg c p s
  · exact raiseFault_cfg _ s

theorem emitterPart_cfg {s t : State} (h : emitterPart s = .next t) : t.cfg = s.cfg := by
  obtain ⟨_, _, _, _, _, rfl⟩ := emitterPart_effect h
  rfl

theorem queueCommit_cfg {s t : State} (h : queueCommit s = .next t) : t.cfg = s.cfg := by
  obtain ⟨q, rfl⟩ | ⟨n, ts, rfl⟩ := queueCommit_effect h
  · rfl
  · exact raiseFault_cfg _ _

/-- R15: the configuration after a step is the latched inputs of a reset cycle, else the configuration before it. -/
theorem step_cfg {s t : State} (h : step s = .next t) : t.cfg = if s.pins.rst then .latch s.pins.cfg else s.cfg := by
  obtain ⟨hr, rfl⟩ | ⟨hr, -, -, s1, s2, s3, s4, hu, hc, he, hq, rfl⟩ := step_cases h
  · simp only [hr, if_true, endCycle_cfg, resetCycle_cfg]
  · simp only [hr, Bool.false_eq_true, if_false]
    calc (endCycle s4).cfg
      _ = s4.cfg := endCycle_cfg s4
      _ = s3.cfg := queueCommit_cfg hq
      _ = s2.cfg := emitterPart_cfg he
      _ = (popPart s1).cfg := collectorPart_cfg hc
      _ = s1.cfg := popPart_cfg s1
      _ = (fatalEntry (beginCycle s)).cfg := uartPart_cfg rfl hu
      _ = s.cfg := (fatalEntry_cfg _).trans (beginCycle_cfg s)

/-! ## The silence threshold in natural numbers -/

theorem silenceThreshold_of_override {p : CfgPins} (h : p.tmoOvrEn = true) : silenceThreshold p = p.tmoOvr := by
  simp only [silenceThreshold, h, if_true]

/-- The rounded-up quotient for the largest `bd` of 24 bits bounds every other. -/
theorem derivedThreshold_le (bd : BitVec 24) : (1001 * bd.toNat + 20 - 1) / 20 ≤ 839699611 := by
  have := bd.isLt
  omega

/-- R16: 32 bits hold the derived threshold without loss. -/
theorem silenceThreshold_derived_toNat {p : CfgPins} (h : p.tmoOvrEn = false) :
    (silenceThreshold p).toNat = (1001 * p.baudDiv.toNat + 20 - 1) / 20 := by
  have hb := derivedThreshold_le p.baudDiv
  simp only [silenceThreshold, h, Bool.false_eq_true, if_false, Config.tmoNum, Config.tmoDen, BitVec.toNat_ofNat]
  exact Nat.mod_eq_of_lt (by omega)

end Sys2Proof.Machine
end

section
/-! Reset and configuration: the statements of 10_state.md R15 and R16. -/

open Sys2Proof Sys2Proof.Machine

/-- Settles O2: a step latches the inputs in a reset cycle and keeps the registers in any other. -/
theorem configurationLatchedOnlyInReset : Obligations.ConfigurationLatchedOnlyInReset := by
  intro s t h
  have hcfg := step_cfg h
  constructor <;> intro hr <;> rw [hcfg, hr]
  · exact ⟨rfl, rfl, rfl, rfl, rfl, rfl, rfl⟩
  · rfl

/-- Settles O3: the reset cycle latches the threshold, and the derived one stays below 2^32. -/
theorem silenceThresholdIsExact : Obligations.SilenceThresholdIsExact := by
  refine ⟨fun s hr => ⟨endCycle (resetCycle s), step_of_rst hr, ?_, ?_⟩, by decide⟩
  · exact fun hen => silenceThreshold_of_override hen
  · intro hen
    have htmo : (endCycle (resetCycle s)).cfg.tmo.toNat = (1001 * s.pins.cfg.baudDiv.toNat + 20 - 1) / 20 :=
      silenceThreshold_derived_toNat hen
    exact ⟨htmo, htmo ▸ derivedThreshold_le _⟩

end

section
/-! SUPPORT. The receiver (40_uart_rx.md): its operation by the conditions of a state, the sample points, what its operations do, and its
synchronizer over a whole step. -/

namespace Sys2Proof.Machine

/-! ## The selected operation -/

/-- R51: the one operation that a running receiver's conditions select is what its selector decodes to. -/
theorem decode_usel_of_uartOp {s : State} {i : Instr} (hstop : s.sig.stop = false)
    (h : uartOp false s.uart.state (uHit s) s.sig.rxdS (s.uart.bit == 7) (parEn s.cfg) = some i) :
    decode (.usel (usel s)) = .ok [i] := by
  rw [decode_usel, hstop, h, decoded]

/-- R51: in U_START the sample comes at half a bit. -/
theorem uHit_start {s : State} (h : s.uart.state = .start) :
    uHit s = decide (s.uart.cnt.toNat = s.cfg.baudDiv.toNat / 2) := by
  simp only [uHit, h, Bool.beq_eq_decide_eq, eq_halfBit_iff]

/-- R51: in the states of the bits after the start bit the sample comes at a whole bit. -/
theorem uHit_bit {s : State} (h : s.uart.state ∈ [UState.data, .parity, .stop]) :
    uHit s = (s.uart.cnt == s.cfg.baudDiv) := by
  simp only [List.mem_cons, List.not_mem_nil, or_false] at h
  obtain h | h | h := h <;> simp only [uHit, h]

theorem parEn_eq (c : Cfg) : parEn c = (c.parity != 0) := rfl

/-! ## What the operations do -/

/-- R64, R77: the operations that only wait. -/
theorem exec_uartWait {i : Instr} (h : i ∈ [Instr.uIdleWait, .uWaitLow]) (s : State) :
    exec i s = .next (uartEnd s.uart .quiet s) := by
  simp only [List.mem_cons, List.not_mem_nil, or_false] at h
  obtain rfl | rfl := h <;> rfl

/-- R66, R69, R73, R75: the operations that only count. -/
theorem exec_uartCount {i : Instr} (h : i ∈ [Instr.uStartCount, .uDataCount, .uParCount, .uStopCount]) (s : State) :
    exec i s = .next (uartEnd { s.uart with cnt := s.uart.cnt + 1 } .quiet s) := by
  simp only [List.mem_cons, List.not_mem_nil, or_false] at h
  obtain rfl | rfl | rfl | rfl := h <;> rfl

/-- R70. -/
theorem exec_uDataSample (s : State) : exec .uDataSample s =
    .next (uartEnd { s.uart with shift := shiftIn s.sig.rxdS s.uart.shift, cnt := 1, bit := s.uart.bit + 1 } .quiet s) := rfl

/-- R71. -/
theorem exec_uDataLastNopar (s : State) : exec .uDataLastNopar s =
    .next (uartEnd { s.uart with shift := shiftIn s.sig.rxdS s.uart.shift, cnt := 1, state := .stop } .quiet s) := rfl

/-- R72. -/
theorem exec_uDataLastPar (s : State) : exec .uDataLastPar s =
    .next (uartEnd { s.uart with shift := shiftIn s.sig.rxdS s.uart.shift, cnt := 1, state := .parity } .quiet s) := rfl

/-- R74. -/
theorem exec_uParSample (s : State) :
    exec .uParSample s = .next (uartEnd { s.uart with par := s.sig.rxdS, cnt := 1, state := .stop } .quiet s) := rfl

/-- R70: eight samples, the least significant bit first, leave nothing of the old register. -/
theorem shiftIn_eight (b x : BitVec 8) :
    shiftIn (b.getLsbD 7) (shiftIn (b.getLsbD 6) (shiftIn (b.getLsbD 5) (shiftIn (b.getLsbD 4) (shiftIn (b.getLsbD 3)
      (shiftIn (b.getLsbD 2) (shiftIn (b.getLsbD 1) (shiftIn (b.getLsbD 0) x))))))) = b := by
  apply BitVec.eq_of_getLsbD_eq
  intro j hj
  interval_cases j <;> simp [shiftIn_getLsbD, -BitVec.getLsbD_eq_getElem]

/-! ## The synchronizer over a step -/

/-- What the receiver leaves to the rest of a cycle: its registers, `rxd_s` and its signals. -/
def receiverView (s : State) : Uart × Bool × Rx := (s.uart, s.sig.rxdS, s.sig.rx)

theorem receiverView_eq_iff {s t : State} :
    receiverView s = receiverView t ↔ s.uart = t.uart ∧ s.sig.rxdS = t.sig.rxdS ∧ s.sig.rx = t.sig.rx := by
  simp only [receiverView, Prod.mk.injEq]

theorem collectorPart_receiverView {s t : State} (h : collectorPart s = .next t) : receiverView t = receiverView s := by
  obtain ⟨c, p, rfl⟩ | ⟨w, rfl⟩ := collectorPart_effect h <;> rfl

theorem emitterPart_receiverView {s t : State} (h : emitterPart s = .next t) : receiverView t = receiverView s := by
  obtain ⟨_, _, _, _, _, rfl⟩ := emitterPart_effect h
  rfl

theorem queueCommit_receiverView {s t : State} (h : queueCommit s = .next t) : receiverView t = receiverView s := by
  obtain ⟨q, rfl⟩ | ⟨n, ts, rfl⟩ := queueCommit_effect h <;> rfl

/-- After a step with `rst` = 0 the receiver stands as its own part of the cycle left it. -/
theorem step_receiverView {s t : State} (hr : s.pins.rst = false) (h : step s = .next t) :
    ∃ s1, uartPart (fatalEntry (beginCycle s)) = .next s1 ∧ receiverView t = receiverView s1 := by
  obtain ⟨hr', -⟩ | ⟨-, -, -, s1, s2, s3, s4, hu, hc, he, hq, rfl⟩ := step_cases h
  · exact absurd hr' (by simp [hr])
  · refine ⟨s1, hu, ?_⟩
    calc receiverView (endCycle s4)
      _ = receiverView s4 := rfl
      _ = receiverView s3 := queueCommit_receiverView hq
      _ = receiverView s2 := emitterPart_receiverView he
      _ = receiverView (popPart s1) := collectorPart_receiverView hc
      _ = receiverView s1 := rfl

/-- R60: a step with `rst` = 0 samples the second stage, and both stages shift. -/
theorem step_samplesLine {s t : State} (hr : s.pins.rst = false) (h : step s = .next t) :
    t.sig.rxdS = s.uart.sync2 ∧ t.uart.sync2 = s.uart.sync1 ∧ t.uart.sync1 = s.pins.rxd := by
  obtain ⟨s1, hu, hv⟩ := step_receiverView hr h
  obtain ⟨huart, hrxd, -⟩ := receiverView_eq_iff.1 hv
  obtain ⟨_, _, _, _, _, _, _, -, rfl⟩ := uartPart_effect rfl hu
  rw [huart, hrxd]
  exact ⟨rfl, rfl, rfl⟩

/-- R60, R146: a reset cycle leaves both stages at the idle level. -/
theorem uart_of_reset_step {s t : State} (hr : s.pins.rst = true) (h : step s = .next t) : t.uart = .reset := by
  rw [step_of_rst hr] at h
  cases h
  rfl

end Sys2Proof.Machine
end

section
/-! The UART receiver: the statements of 40_uart_rx.md R60, R64, R66, R69 to R75 and R77. -/

open Sys2Proof Sys2Proof.Machine

/-- Settles O11: the level of the pin, or of reset, moves one stage a step until it is sampled. -/
theorem lineIsSampledTwoCyclesLate : Obligations.LineIsSampledTwoCyclesLate := by
  refine ⟨fun s t hr h => step_samplesLine hr h, ?_, ?_⟩
  · intro s t u v hs ht hu hst htu huv
    obtain ⟨-, -, hpin⟩ := step_samplesLine hs hst
    obtain ⟨-, hshift, -⟩ := step_samplesLine ht htu
    obtain ⟨hsample, -, -⟩ := step_samplesLine hu huv
    rw [hsample, hshift, hpin]
  · intro s t u v hs ht hu hst htu huv
    have hreset := uart_of_reset_step hs hst
    obtain ⟨hsample, hshift, -⟩ := step_samplesLine ht htu
    obtain ⟨hsample', -, -⟩ := step_samplesLine hu huv
    rw [hsample, hsample', hshift, hreset]
    exact ⟨rfl, rfl⟩

/-- Settles O12: the state and the line's level select the wait, which ends with the registers it began with. -/
theorem uartWaitsChangeNoRegister : Obligations.UartWaitsChangeNoRegister := by
  refine ⟨fun s hstop hst hrxd => ?_, fun s hstop hst hrxd => ?_, fun s => ⟨?_, ?_⟩⟩
  · exact decode_usel_of_uartOp hstop (by simp [uartOp, hst, hrxd])
  · exact decode_usel_of_uartOp hstop (by simp [uartOp, hst, hrxd])
  · exact exec_uartWait (by decide) s
  · exact exec_uartWait (by decide) s

/-- Settles O13: away from the sample point a count is selected, and half a bit and a bit are bounds of 24 bits. -/
theorem uartCountsAdvanceOneCycle : Obligations.UartCountsAdvanceOneCycle := by
  refine ⟨fun s hstop => ⟨?_, ?_, ?_, ?_⟩, fun s i hi => exec_uartCount hi s, fun s => ?_⟩
  · exact fun hst hcnt => decode_usel_of_uartOp hstop (by simp [uartOp, hst, uHit_start, hcnt])
  · exact fun hst hcnt => decode_usel_of_uartOp hstop (by simp [uartOp, hst, uHit_bit, hcnt])
  · exact fun hst hcnt => decode_usel_of_uartOp hstop (by simp [uartOp, hst, uHit_bit, hcnt])
  · exact fun hst hcnt => decode_usel_of_uartOp hstop (by simp [uartOp, hst, uHit_bit, hcnt])
  · have hbd := s.cfg.baudDiv.isLt
    exact ⟨fun h => (cnt_succ h.le h.ne (by omega)).2, fun h => (cnt_succ h.le h.ne hbd).2⟩

/-- Settles O16: the three samples of a data bit share one new shift register, and eight of them fill it. -/
theorem uartDataBitsShiftIn : Obligations.UartDataBitsShiftIn := by
  refine ⟨fun s hstop hst hcnt => ⟨?_, ?_, ?_⟩, fun s => ⟨shiftIn s.sig.rxdS s.uart.shift, ?_, ?_, ?_⟩, shiftIn_eight⟩
  · intro hbit
    have hmore : (s.uart.bit == 7) = false := beq_false_of_ne hbit
    exact decode_usel_of_uartOp hstop (by rw [hmore]; simp [uartOp, hst, uHit_bit, hcnt])
  · intro hbit hpar
    have hnone : parEn s.cfg = false := (parEn_eq _).trans (bne_eq_false_iff_eq.2 hpar)
    exact decode_usel_of_uartOp hstop (by simp [uartOp, hst, uHit_bit, hcnt, hbit, hnone])
  · intro hbit hpar
    have hsome : parEn s.cfg = true := (parEn_eq _).trans (bne_iff_ne.2 hpar)
    exact decode_usel_of_uartOp hstop (by simp [uartOp, hst, uHit_bit, hcnt, hbit, hsome])
  · exact shiftIn_getLsbD _ _ 7
  · exact fun j hj => (shiftIn_getLsbD _ _ j).trans (if_pos hj)
  · exact ⟨exec_uDataSample s, exec_uDataLastNopar s, exec_uDataLastPar s⟩

/-- Settles O17: at a whole bit U_PARITY samples, and the sample writes the level to `u_par`. -/
theorem uartParityBitIsSampled : Obligations.UartParityBitIsSampled := by
  refine ⟨fun s hstop hst hcnt => ?_, exec_uParSample⟩
  exact decode_usel_of_uartOp hstop (by simp [uartOp, hst, uHit_bit, hcnt])

end

section
/-! SUPPORT. The frame collector (41_frame_collector.md): its operation by the conditions of a state, the ends of its timer, what its
operations do, and its byte store. -/

namespace Sys2Proof.Machine

/-! ## The selected operation -/

/-- R52: the one operation that a running collector's conditions select is what its selector decodes to. -/
theorem decode_csel_of_collectorOp {s : State} {i : Instr} (hstop : s.sig.stop = false)
    (h : collectorOp false s.col.state s.sig.rx.strobe (cHit s) (s.col.len == 255) = some i) :
    decode (.csel (csel s)) = .ok [i] := by
  rw [decode_csel, hstop, h, decoded]

/-- R52: in C_SETTLE the timer ends at the settle time. -/
theorem cHit_settle {s : State} (h : s.col.state = .settle) : cHit s = (s.col.timer == s.cfg.settle) := by
  simp only [cHit, h]

/-- R52: in C_IDLE and C_COLLECT the timer ends one below TMO. -/
theorem cHit_tmo {s : State} (h : s.col.state ∈ [CState.idle, .collect]) :
    cHit s = (s.col.timer.toNat + 1 == s.cfg.tmo.toNat) := by
  simp only [List.mem_cons, List.not_mem_nil, or_false] at h
  obtain h | h := h <;> simp only [cHit, h]

/-! ## What the operations do -/

/-- R83, R85, R88: the operations that only count. -/
theorem exec_colCount {i : Instr} (h : i ∈ [Instr.cSettleWait, .cIdleWait, .cColWait]) (s : State) :
    exec i s = .next (colEnd { s.col with timer := s.col.timer + 1 } none s) := by
  simp only [List.mem_cons, List.not_mem_nil, or_false] at h
  obtain rfl | rfl | rfl := h <;> rfl

/-- R87. -/
theorem exec_cIdleFirstByte (s : State) : exec .cIdleFirstByte s =
    .next (colEnd { frameWrite 0 s.sig.rx.byte s.col with len := 1, timer := 0, state := .collect } none s) := rfl

/-- R90. -/
theorem exec_cColAppend (s : State) : exec .cColAppend s =
    .next (colEnd { frameWrite s.col.len.toNat s.sig.rx.byte s.col with len := s.col.len + 1, timer := 0 } none s) := rfl

/-! ## The byte store -/

/-- R29: a store within `c_buf` sets the byte at its index and no other. -/
theorem memRead_frameWrite {c : Collector} (h : c.buf.wf = true) {i : Nat} (hi : i ≤ 255) (b : Byte) (j : Nat) :
    memRead (frameWrite i b c).buf j = if j = i then b else memRead c.buf j := by
  rw [frameWrite, byteIndex_of_lt (Nat.lt_succ_of_le hi), memRead_memWrite h]

end Sys2Proof.Machine
end

section
/-! The frame collector: the statements of 41_frame_collector.md R83, R85, R87, R88 and R90. -/

open Sys2Proof Sys2Proof.Machine

/-- Settles O21: away from its end the timer counts in each of the three states, and TMO bounds it. -/
theorem collectorTimersAdvance : Obligations.CollectorTimersAdvance := by
  refine ⟨fun s hstop => ⟨?_, ?_, ?_⟩, fun s i hi => exec_colCount hi s, fun s h => ?_⟩
  · exact fun hst ht => decode_csel_of_collectorOp hstop (by simp [collectorOp, hst, cHit_settle, ht])
  · exact fun hst hrx ht => decode_csel_of_collectorOp hstop (by simp [collectorOp, hst, hrx, cHit_tmo, ht])
  · exact fun hst hrx ht => decode_csel_of_collectorOp hstop (by simp [collectorOp, hst, hrx, cHit_tmo, ht])
  · bv_omega

/-- Settles O25: the strobe selects the store at index 0 without a look at the timer. -/
theorem firstByteStartsAFrame : Obligations.FirstByteStartsAFrame := by
  refine ⟨fun s hstop hst hrx => ?_, fun s hwf => ?_⟩
  · exact decode_csel_of_collectorOp hstop (by simp [collectorOp, hst, hrx])
  · exact ⟨_, exec_cIdleFirstByte s, memRead_frameWrite hwf (Nat.zero_le 255) _⟩

/-- Settles O26: below 255 bytes the strobe selects the store at `c_len` without a look at the timer. -/
theorem appendStoresAtTheLength : Obligations.AppendStoresAtTheLength := by
  refine ⟨fun s hstop hst hrx hlen => ?_, fun s hwf hlen => ?_, fun s hlen => ?_⟩
  · have hnotFull : (s.col.len == 255) = false := beq_false_of_ne hlen
    exact decode_csel_of_collectorOp hstop (by simp only [collectorOp, hst, hrx, hnotFull, Bool.false_eq_true, if_true, if_false])
  · exact ⟨_, exec_cColAppend s, memRead_frameWrite hwf hlen _⟩
  · constructor <;> bv_omega

end

section
/-! SUPPORT. The CRC generator (42_crc16.md): the payload byte it reads, and what its operations do. -/

namespace Sys2Proof.Machine

/-- R28: an index register of 8 bits reads the head frame's byte at that index itself. -/
theorem headRead_toNat (s : State) (i : BitVec 8) : headRead s i.toNat = memRead s.q.headEntry.bytes i.toNat := by
  rw [headRead, byteIndex_toNat]

/-- R99: the value that enters the shift, by the byte at `e_idx`. -/
theorem crcFeed_eq (s : State) : crcFeed s =
    if s.em.bit = 0 then s.em.crc ^^^ (memRead s.q.headEntry.bytes s.em.idx.toNat).setWidth 16 else s.em.crc := by
  rw [crcFeed, headRead_toNat]

/-- R95. -/
theorem exec_crcInit (s : State) : exec .crcInit s = .next (s.setEm { s.em with crc := 0xFFFF }) := rfl

/-- R96: a combinational value, so no register changes. -/
theorem exec_crcByteIn (s : State) : exec .crcByteIn s =
    .next (driveT (s.em.crc ^^^ (memRead s.q.headEntry.bytes s.em.idx.toNat).setWidth 16) s) := by
  rw [← headRead_toNat]
  rfl

/-- R97. -/
theorem exec_crcShift (s : State) : exec .crcShift s = .next (s.setEm { s.em with crc := s.sig.t >>> 1 }) := rfl

/-- R98: the shift first, then the XOR. -/
theorem exec_crcShiftXor (s : State) : exec .crcShiftXor s =
    .next (s.setEm { s.em with crc := (s.sig.t >>> 1) ^^^ 0xA001 }) := rfl

end Sys2Proof.Machine
end

section
/-! The CRC generator: the statement of 42_crc16.md R95 to R98 and 30_encoding.md R53. -/

open Sys2Proof Sys2Proof.Machine

/-- Settles O31: each operation by its own equation, and KSEL's list by the value that enters the shift. -/
theorem crcOperationsStepTheRegister : Obligations.CrcOperationsStepTheRegister := by
  intro s
  refine ⟨exec_crcInit s, exec_crcByteIn s, exec_crcShift s, exec_crcShiftXor s, ?_⟩
  rw [← crcFeed_eq]
  exact decode_ksel s

end

section
/-! SUPPORT. The frame validator (43_frame_validator.md): what its selector reads and its operations write, and the branches
of VALIDATE. -/

namespace Sys2Proof.Machine

/-! ## The selected operation -/

/-- R34, R35: of a frame of at least 5 bytes, the two byte reads give the received CRC of the frame itself. -/
theorem headReceivedCrc_of_long {s : State} (h : 5 ≤ headLen s) : headReceivedCrc s = frameReceivedCrc (headFrame s) := by
  rw [frameReceivedCrc, headFrame_length, frameByte_headFrame (by omega), frameByte_headFrame (by omega), headReceivedCrc]

/-- R54 of the head frame as a list of bytes. -/
theorem decode_vsel_headFrame (s : State) : decode (.vsel (vsel s)) =
    .ok [if headLen s < 5 then .vShortFrame
      else if frameReceivedCrc (headFrame s) ≠ s.em.crc then .vBadCrc
      else if 0x80 < (memRead s.q.headEntry.bytes 1).toNat then .vException else .vOk] := by
  rw [decode_vsel, Config.minFrame, headRead, byteIndex_of_lt (by decide)]
  by_cases h : headLen s < 5
  · rw [if_pos h, if_pos h]
  · rw [if_neg h, if_neg h, headReceivedCrc_of_long (Nat.le_of_not_lt h)]

/-! ## What the operations do -/

/-- R104. -/
theorem exec_vShortFrame (s : State) : exec .vShortFrame s =
    .next (s.setRecord { s.record with status := .shortFrame, slave := 0, func := 0, exc := 0 }) := rfl

/-- R105. -/
theorem exec_vBadCrc (s : State) : exec .vBadCrc s =
    .next (s.setRecord { s.record with status := .badCrc, slave := 0, func := 0, exc := 0 }) := rfl

/-- R106. -/
theorem exec_vOk (s : State) : exec .vOk s =
    .next (s.setRecord { s.record with
      status := .ok, slave := memRead s.q.headEntry.bytes 0, func := memRead s.q.headEntry.bytes 1, exc := 0 }) := rfl

/-- R107. -/
theorem exec_vException (s : State) : exec .vException s =
    .next (s.setRecord { s.record with
      status := .exception, slave := memRead s.q.headEntry.bytes 0, func := memRead s.q.headEntry.bytes 1,
      exc := memRead s.q.headEntry.bytes 2 }) := rfl

/-! ## The branches of VALIDATE -/

variable {crc : BitVec 16} {f : Frame} (ts : BitVec 64)

theorem validateWith_short (h : f.length < 5) :
    validateWith crc f ts = ⟨.shortFrame, 0, 0, 0, BitVec.ofNat 9 f.length, ts⟩ := if_pos h

theorem validateWith_badCrc (h : 5 ≤ f.length) (hc : frameReceivedCrc f ≠ crc) :
    validateWith crc f ts = ⟨.badCrc, 0, 0, 0, BitVec.ofNat 9 f.length, ts⟩ :=
  (if_neg h.not_gt).trans (if_pos hc)

theorem validateWith_exception (h : 5 ≤ f.length) (hc : frameReceivedCrc f = crc) (hx : 0x80 < (frameByte f 1).toNat) :
    validateWith crc f ts =
      ⟨.exception, frameByte f 0, frameByte f 1, frameByte f 2, BitVec.ofNat 9 f.length, ts⟩ :=
  (if_neg h.not_gt).trans ((if_neg (not_not_intro hc)).trans (if_pos hx))

theorem validateWith_ok (h : 5 ≤ f.length) (hc : frameReceivedCrc f = crc) (hx : (frameByte f 1).toNat ≤ 0x80) :
    validateWith crc f ts = ⟨.ok, frameByte f 0, frameByte f 1, 0, BitVec.ofNat 9 f.length, ts⟩ :=
  (if_neg h.not_gt).trans ((if_neg (not_not_intro hc)).trans (if_neg hx.not_gt))

/-- R109 (e): a short frame and one with a bad CRC have no address, and only an exception frame has an exception code. -/
theorem validateWith_cases (crc : BitVec 16) (f : Frame) :
    let r := validateWith crc f ts
    r.slave = 0 ∧ r.exc = 0 ∨ r.status = .ok ∧ r.exc = 0 ∨ r.status = .exception := by
  obtain h | h := Nat.lt_or_ge f.length 5
  · rw [validateWith_short ts h]
    exact .inl ⟨rfl, rfl⟩
  by_cases hc : frameReceivedCrc f = crc
  · obtain hx | hx := Nat.lt_or_ge 0x80 (frameByte f 1).toNat
    · rw [validateWith_exception ts h hc hx]
      exact .inr (.inr rfl)
    · rw [validateWith_ok ts h hc hx]
      exact .inr (.inl ⟨rfl, rfl⟩)
  · rw [validateWith_badCrc ts h hc]
    exact .inl ⟨rfl, rfl⟩

end Sys2Proof.Machine
end

section
/-! The frame validator: the statements of 43_frame_validator.md R104 to R107 and R109. -/

open Sys2Proof Sys2Proof.Machine

/-- Settles O35: each operation by its own equation, and the selected one by the head frame's length, CRC and function code. -/
theorem validatorOperationsClassify : Obligations.ValidatorOperationsClassify := by
  intro s
  have hsel := decode_vsel_headFrame s
  rw [frameReceivedCrc, headFrame_length] at hsel
  exact ⟨exec_vShortFrame s, exec_vBadCrc s, exec_vOk s, exec_vException s, hsel⟩

/-- Settles O36: (a) to (d) are the four branches of VALIDATE, and (e) holds in each of them. -/
theorem validateTestableProperties : Obligations.ValidateTestableProperties := by
  intro f ts
  refine ⟨fun hn => ?_, fun hn hgood hx => ?_, fun hn hgood hx => ?_, fun hn hbad => ?_, ?_, ?_⟩
  · have hr (c : BitVec 16) := validateWith_short (crc := c) ts hn
    exact ⟨congrArg Record.status (hr _), congrArg Record.slave (hr _), fun c => (hr c).trans (hr _).symm⟩
  · have hr := validateWith_ok ts hn hgood hx
    exact ⟨congrArg Record.status hr, congrArg Record.slave hr⟩
  · have hr := validateWith_exception ts hn hgood hx
    exact ⟨congrArg Record.status hr, congrArg Record.exc hr⟩
  · exact congrArg Record.status (validateWith_badCrc ts hn hbad)
  · intro hslave
    obtain ⟨h, -⟩ | ⟨h, -⟩ | h := validateWith_cases ts (crc16 (payload f)) f
    · exact absurd h hslave
    · exact .inl h
    · exact .inr h
  · intro hexc
    obtain ⟨-, h⟩ | ⟨-, h⟩ | h := validateWith_cases ts (crc16 (payload f)) f
    · exact absurd h hexc
    · exact absurd h hexc
    · exact h

end

section
/-! SUPPORT. The formatter's operations and the texts of bytes (44_record_formatter.md): what each operation drives, decimal and hexadecimal
digits, and where the bytes of a frame stand in HEX_FRAME. -/

namespace Sys2Proof.Machine

/-! ## What the operations drive -/

/-- R110. -/
theorem exec_hexByte (b : Byte) (s : State) :
    exec (.hexByte b) s = .next (driveFmt { s.sig.fmt with hexByte := hexByteText b } s) := rfl

/-- R111. -/
theorem exec_hexFrame (f : Frame) (s : State) :
    exec (.hexFrame f) s = .next (driveFmt { s.sig.fmt with hexFrame := hexFrameText f } s) := rfl

/-- R112. -/
theorem exec_statusToken (st : Status) (s : State) :
    exec (.statusToken st) s = .next (driveFmt { s.sig.fmt with token := statusTokenText st } s) := rfl

/-- R113. -/
theorem exec_decU8 (v : Byte) (s : State) :
    exec (.decU8 v) s = .next (driveFmt { s.sig.fmt with dec := decU8Text v } s) := rfl

/-- R114. -/
theorem exec_civilFromDays (z : Int) (s : State) :
    exec (.civilFromDays z) s = .next (driveFmt { s.sig.fmt with civil := civilFromDays z } s) := rfl

/-- R115: within TS_MAX the date and the text are driven. -/
theorem exec_timestamp_of_le {ts : BitVec 64} (h : ts.toNat ≤ 253402300799999) (s : State) :
    exec (.timestamp ts) s = .next (driveFmt { s.sig.fmt with
      civil := civilFromDays ((ts.toNat / 86400000 : Nat) : Int), stamp := timestampText ts } s) :=
  if_neg h.not_gt

/-- R115: a later time is refused. -/
theorem exec_timestamp_of_gt {ts : BitVec 64} (h : 253402300799999 < ts.toNat) (s : State) :
    exec (.timestamp ts) s = .refused (.timestampOutOfRange ts) :=
  if_pos h

/-- R116: within TS_MAX the line driven is that of the operands. -/
theorem exec_line_of_le {ts : BitVec 64} (h : ts.toNat ≤ 253402300799999) (st : Status) (slave : Byte) (f : Frame) (s : State) :
    ∃ fmt : Fmt, fmt.line = lineText st slave ts f ∧ exec (.line st slave ts f) s = .next (driveFmt fmt s) :=
  ⟨_, rfl, (execLine_eq st slave ts f s).trans (if_neg h.not_gt)⟩

/-! ## Decimal digits -/

/-- The number that a text of decimal digits writes. -/
def decimalValue (text : Text) : Nat := text.foldl (fun n c => 10 * n + (c.toNat - 0x30)) 0

/-- A character is a decimal digit. -/
def IsDecimal (c : Byte) : Prop := 0x30 ≤ c.toNat ∧ c.toNat ≤ 0x39

theorem digit_toNat {x : Nat} (h : x < 10) : (digit x).toNat = 0x30 + x := by
  rw [digit, BitVec.toNat_ofNat]
  omega

theorem isDecimal_digit {x : Nat} (h : x < 10) : IsDecimal (digit x) := by
  rw [IsDecimal, digit_toNat h]
  omega

/-- The digits of a numeral give its value by Horner's rule. -/
theorem decimalValue_digits {ds : List Nat} (h : ∀ d ∈ ds, d < 10) :
    decimalValue (ds.map digit) = ds.foldl (fun n d => 10 * n + d) 0 := by
  rw [decimalValue, List.foldl_map]
  exact List.foldl_ext _ _ _ fun n d hd => by rw [digit_toNat (h d hd), Nat.add_sub_cancel_left]

theorem decimalValue_digit {v : Nat} (h : v < 10) : decimalValue [digit v] = v := by
  have hdigits := decimalValue_digits (ds := [v]) (by simpa using h)
  exact hdigits.trans (Nat.zero_add v)

theorem decimalValue_dec2 {v : Nat} (h : v < 100) : decimalValue (dec2 v) = v := by
  have hdigits := decimalValue_digits (ds := [v / 10 % 10, v % 10]) (by simp [Nat.mod_lt])
  exact hdigits.trans (by simp only [List.foldl]; omega)

theorem decimalValue_dec3 {v : Nat} (h : v < 1000) : decimalValue (dec3 v) = v := by
  have hdigits := decimalValue_digits (ds := [v / 100 % 10, v / 10 % 10, v % 10]) (by simp [Nat.mod_lt])
  exact hdigits.trans (by simp only [List.foldl]; omega)

theorem decimalValue_dec4 {v : Nat} (h : v < 10000) : decimalValue (dec4 v) = v := by
  have hdigits := decimalValue_digits (ds := [v / 1000 % 10, v / 100 % 10, v / 10 % 10, v % 10]) (by simp [Nat.mod_lt])
  exact hdigits.trans (by simp only [List.foldl]; omega)

theorem isDecimal_digit_mod (x : Nat) : IsDecimal (digit (x % 10)) := isDecimal_digit (Nat.mod_lt x (by decide))

theorem isDecimal_of_mem_dec2 {v : Nat} : ∀ c ∈ dec2 v, IsDecimal c := by
  simp [dec2, isDecimal_digit_mod]

theorem isDecimal_of_mem_dec3 {v : Nat} : ∀ c ∈ dec3 v, IsDecimal c := by
  simp [dec3, isDecimal_digit_mod]

theorem isDecimal_of_mem_dec4 {v : Nat} : ∀ c ∈ dec4 v, IsDecimal c := by
  simp [dec4, isDecimal_digit_mod]

/-- R113: DEC_U8 is the numeral of the least width that holds the value. -/
theorem decU8Text_eq (v : Byte) : decU8Text v =
    if v.toNat < 10 then [digit v.toNat] else if v.toNat < 100 then dec2 v.toNat else dec3 v.toNat := by
  have hv := v.isLt
  simp only [decU8Text, dec2, dec3]
  split
  next => rfl
  next =>
    split
    next h => rw [Nat.mod_eq_of_lt (a := v.toNat / 10) (by omega)]
    next h => rw [Nat.mod_eq_of_lt (a := v.toNat / 100) (by omega)]

theorem decimalValue_decU8Text (v : Byte) : decimalValue (decU8Text v) = v.toNat := by
  have hv := v.isLt
  rw [decU8Text_eq]
  split
  next h => exact decimalValue_digit h
  next =>
    split
    next h => exact decimalValue_dec2 h
    next => exact decimalValue_dec3 (by omega)

theorem isDecimal_of_mem_decU8Text {v : Byte} : ∀ c ∈ decU8Text v, IsDecimal c := by
  rw [decU8Text_eq]
  split
  next h => exact List.forall_mem_singleton.2 (isDecimal_digit h)
  next =>
    split
    next => exact isDecimal_of_mem_dec2
    next => exact isDecimal_of_mem_dec3

theorem length_decU8Text (v : Byte) :
    (decU8Text v).length = if v.toNat < 10 then 1 else if v.toNat < 100 then 2 else 3 := by
  rw [decU8Text_eq]
  split
  next => rfl
  next => split <;> rfl

/-! ## Hexadecimal digits -/

/-- R110: a nibble's digit stands at its value in the table of the sixteen. -/
theorem hexDigit_eq_table : ∀ v < 16, hexDigit v = (ascii "0123456789ABCDEF".toList).getD v 0 := by decide

theorem byte_div_lt (b : Byte) : b.toNat / 16 < 16 := Nat.div_lt_of_lt_mul b.isLt

theorem byte_mod_lt (b : Byte) : b.toNat % 16 < 16 := Nat.mod_lt _ (by decide)

theorem hexTail_cons (b : Byte) (f : Frame) :
    hexTail (b :: f) = 0x2D :: hexDigit (b.toNat / 16) :: hexDigit (b.toNat % 16) :: hexTail f := rfl

/-- R111: a dash before every byte but the first. -/
theorem hexFrameText_eq_drop (f : Frame) : hexFrameText f = (hexTail f).drop 1 := by
  cases f <;> rfl

theorem length_hexTail (f : Frame) : (hexTail f).length = 3 * f.length := by
  induction f with
  | nil => rfl
  | cons b f ih => rw [hexTail_cons, List.length_cons, List.length_cons, List.length_cons, ih, List.length_cons, Nat.mul_succ]

/-- The three characters that byte `i` takes: a dash and its two digits. -/
theorem getD_hexTail {f : Frame} {i k : Nat} (hi : i < f.length) (hk : k < 3) :
    (hexTail f).getD (3 * i + k) 0 = (0x2D :: hexByteText f[i]).getD k 0 := by
  induction f generalizing i with
  | nil => exact absurd hi (Nat.not_lt_zero i)
  | cons b f ih =>
    rw [hexTail_cons]
    cases i with
    | zero => interval_cases k <;> rfl
    | succ i =>
      rw [show 3 * (i + 1) + k = 3 * i + k + 1 + 1 + 1 by omega]
      exact ih (Nat.lt_of_succ_lt_succ hi)

theorem getD_hexFrameText (f : Frame) (n : Nat) : (hexFrameText f).getD n 0 = (hexTail f).getD (n + 1) 0 := by
  rw [hexFrameText_eq_drop, List.getD_eq_getElem?_getD, List.getElem?_drop, Nat.add_comm, List.getD_eq_getElem?_getD]

end Sys2Proof.Machine
end

section
/-! SUPPORT. CIVIL_FROM_DAYS (44_record_formatter.md R114) as the inverse of a day count: dates from March with the day that each one is, the
next date, and the calendar's months. -/

namespace Sys2Proof.Machine

/-! ## Years and months from March -/

theorem yearStart_mono {a b : Int} (h : a ≤ b) : yearStart a ≤ yearStart b := by
  simp only [yearStart]
  omega

/-- The day of an era on which a year ends: year 399, the era's last, has the 29 February of the 400-year rule. -/
def yearEnd (year : Int) : Int := if year = 399 then 146097 else yearStart (year + 1)

/-- The day of a year from March on which a month begins. -/
def monthStart (month : Int) : Int := (153 * month + 2) / 5

/-- The day of a year on which a month ends; February, the last month, ends with the year. -/
def monthEnd (year month : Int) : Int :=
  if month = 11 then yearEnd year - yearStart year else monthStart (month + 1)

/-- The eleven months before February. -/
theorem monthStart_succ {month : Int} (h0 : 0 ≤ month) (h1 : month ≤ 10) : monthStart (month + 1) = monthStart month +
    if month = 1 ∨ month = 3 ∨ month = 6 ∨ month = 8 then 30 else 31 := by
  interval_cases month <;> decide

theorem yearEnd_of_lt {year : Int} (h : year < 399) : yearEnd year = yearStart (year + 1) := if_neg h.ne

theorem yearEnd_le_yearStart {a b : Int} (h : a < b) (hb : b ≤ 399) : yearEnd a ≤ yearStart b := by
  rw [yearEnd_of_lt (by omega)]
  exact yearStart_mono h

theorem yearEnd_le {year : Int} (h : year ≤ 399) : yearEnd year ≤ 146097 := by
  obtain rfl | h := h.eq_or_lt
  · exact le_rfl
  · exact (yearEnd_le_yearStart h le_rfl).trans (by decide)

/-- The days of a year from March: one more when the calendar year in which it ends has a 29 February. -/
theorem yearEnd_sub_yearStart {year : Int} (h0 : 0 ≤ year) (h1 : year ≤ 399) (era : Int) :
    yearEnd year - yearStart year =
      if (400 * era + year + 1) % 4 = 0 ∧ ((400 * era + year + 1) % 100 ≠ 0 ∨ (400 * era + year + 1) % 400 = 0)
      then 366 else 365 := by
  obtain rfl | h := h1.eq_or_lt
  · rw [if_pos (by omega)]
    decide
  · rw [yearEnd_of_lt h, yearStart, yearStart]
    split <;> omega

theorem yearLength_bounds {year : Int} (h0 : 0 ≤ year) (h1 : year ≤ 399) :
    365 ≤ yearEnd year - yearStart year ∧ yearEnd year - yearStart year ≤ 366 := by
  rw [yearEnd_sub_yearStart h0 h1 0]
  split <;> decide

/-! ## Dates from March -/

/-- A date as R114 computes it: the 400-year era, the year of the era and the month of the year, each counted from March, and the day of the
month from 1. -/
structure MarchDate where
  era : Int
  year : Int
  month : Int
  dom : Int

namespace MarchDate

/-- The day of the year. -/
def dayOfYear (p : MarchDate) : Int := monthStart p.month + p.dom - 1

/-- The day of the era. -/
def dayOfEra (p : MarchDate) : Int := yearStart p.year + p.dayOfYear

/-- The day count from 1970-01-01. -/
def day (p : MarchDate) : Int := 146097 * p.era + p.dayOfEra - 719468

/-- The date in the calendar's year and month. -/
def civil (p : MarchDate) : Int × Int × Int :=
  if p.month < 10 then (400 * p.era + p.year, p.month + 3, p.dom) else (400 * p.era + p.year + 1, p.month - 9, p.dom)

/-- The date exists. -/
structure Valid (p : MarchDate) : Prop where
  year_nonneg : 0 ≤ p.year
  year_le : p.year ≤ 399
  month_nonneg : 0 ≤ p.month
  month_le : p.month ≤ 11
  dom_pos : 1 ≤ p.dom
  dayOfYear_lt : p.dayOfYear < monthEnd p.year p.month

/-- The next date. -/
def next (p : MarchDate) : MarchDate :=
  if p.dayOfYear + 1 < monthEnd p.year p.month then { p with dom := p.dom + 1 }
  else if p.month < 11 then { p with month := p.month + 1, dom := 1 }
  else if p.year < 399 then { p with year := p.year + 1, month := 0, dom := 1 }
  else ⟨p.era + 1, 0, 0, 1⟩

/-- Every month has a first day. -/
theorem valid_first {era year month : Int} (hy0 : 0 ≤ year) (hy1 : year ≤ 399) (hm0 : 0 ≤ month) (hm1 : month ≤ 11) :
    Valid ⟨era, year, month, 1⟩ := by
  refine ⟨hy0, hy1, hm0, hm1, le_rfl, ?_⟩
  have hlen := (yearLength_bounds hy0 hy1).1
  simp only [dayOfYear, monthEnd, monthStart]
  split <;> omega

section
variable {p : MarchDate} (h : p.Valid)
include h

theorem Valid.monthEnd_le : monthEnd p.year p.month ≤ yearEnd p.year - yearStart p.year := by
  rw [monthEnd]
  split
  · exact le_rfl
  · have hlen := (yearLength_bounds h.year_nonneg h.year_le).1
    have hm := h.month_le
    simp only [monthStart]
    omega

theorem Valid.monthEnd_le_monthStart : monthEnd p.year p.month ≤ monthStart (p.month + 1) := by
  rw [monthEnd]
  split
  next hm =>
    rw [hm]
    exact (yearLength_bounds h.year_nonneg h.year_le).2.trans (by decide)
  next => exact le_rfl

theorem Valid.dayOfYear_nonneg : 0 ≤ p.dayOfYear := by
  have hm := h.month_nonneg
  have hd := h.dom_pos
  simp only [dayOfYear, monthStart]
  omega

theorem Valid.dayOfEra_lt_yearEnd : p.dayOfEra < yearEnd p.year := by
  have hlt := h.dayOfYear_lt
  have hle := h.monthEnd_le
  simp only [dayOfEra]
  omega

theorem Valid.yearStart_le_dayOfEra : yearStart p.year ≤ p.dayOfEra :=
  le_add_of_nonneg_right h.dayOfYear_nonneg

theorem Valid.dayOfEra_nonneg : 0 ≤ p.dayOfEra :=
  (yearStart_mono h.year_nonneg).trans h.yearStart_le_dayOfEra

theorem Valid.dayOfEra_lt : p.dayOfEra < 146097 :=
  h.dayOfEra_lt_yearEnd.trans_le (yearEnd_le h.year_le)

/-- R114's month of a day of the year. -/
theorem Valid.month_of_dayOfYear : (5 * p.dayOfYear + 2) / 153 = p.month := by
  have hlt := h.dayOfYear_lt.trans_le h.monthEnd_le_monthStart
  have hd := h.dom_pos
  simp only [dayOfYear, monthStart] at hlt ⊢
  omega

/-- R114's year of a day of the era: years before it end, and years after it begin, on another day. -/
theorem Valid.year_of_dayOfEra :
    (p.dayOfEra - p.dayOfEra / 1460 + p.dayOfEra / 36524 - p.dayOfEra / 146096) / 365 = p.year := by
  obtain ⟨y, hy, -, hy1, hstart, hend⟩ := year_of_day h.dayOfEra_nonneg h.dayOfEra_lt
  rw [hy]
  have hlt : p.dayOfEra < yearEnd y := by
    obtain rfl | hy1 := hy1.eq_or_lt
    · exact h.dayOfEra_lt
    · exact (yearEnd_of_lt hy1).symm ▸ hend.resolve_right hy1.ne
  obtain hlt' | heq | hgt := lt_trichotomy y p.year
  · have hends := yearEnd_le_yearStart hlt' h.year_le
    have hbegins := h.yearStart_le_dayOfEra
    omega
  · exact heq
  · have hbegins := yearEnd_le_yearStart hgt hy1
    have hends := h.dayOfEra_lt_yearEnd
    omega

/-- R114 inverts the day count. -/
theorem Valid.civilFromDays_day : civilFromDays p.day = p.civil := by
  have hera : (p.day + 719468) / 146097 = p.era := by
    have hdoe0 := h.dayOfEra_nonneg
    have hdoe1 := h.dayOfEra_lt
    simp only [day]
    omega
  have hdoe : p.day + 719468 - p.era * 146097 = p.dayOfEra := by
    simp only [day]
    omega
  have hdoy : p.dayOfEra - (365 * p.year + p.year / 4 - p.year / 100) = p.dayOfYear := by
    simp only [dayOfEra, yearStart]
    omega
  have hdom : p.dayOfYear - (153 * p.month + 2) / 5 + 1 = p.dom := by
    simp only [dayOfYear, monthStart]
    omega
  have hm0 := h.month_nonneg
  have hm1 := h.month_le
  simp only [civilFromDays, hera, hdoe, h.year_of_dayOfEra, hdoy, h.month_of_dayOfYear, hdom, civil]
  split
  · rw [if_neg (by omega)]
    ring_nf
  · rw [if_pos (by omega)]
    ring_nf

theorem Valid.next_valid : p.next.Valid := by
  have ⟨hy0, hy1, hm0, hm1, hd, _⟩ := h
  rw [next]
  split
  next hdom =>
    refine ⟨hy0, hy1, hm0, hm1, hd.trans (lt_add_one _).le, ?_⟩
    simp only [dayOfYear] at hdom ⊢
    omega
  next =>
    split
    next => exact valid_first hy0 hy1 (by omega) (by omega)
    next =>
      split
      next => exact valid_first (by omega) (by omega) le_rfl (by decide)
      next => exact valid_first le_rfl (by decide) le_rfl (by decide)

theorem Valid.next_day : p.next.day = p.day + 1 := by
  have ⟨_, hy1, hm0, hm1, _, hlt⟩ := h
  rw [next]
  split
  next =>
    simp only [day, dayOfEra, dayOfYear]
    omega
  next hdom =>
    split
    next hmonth =>
      rw [monthEnd, if_neg hmonth.ne] at hdom hlt
      simp only [day, dayOfEra, dayOfYear, monthStart] at hdom hlt ⊢
      omega
    next hmonth =>
      rw [monthEnd, if_pos (by omega)] at hdom hlt
      split
      next hyear =>
        rw [yearEnd_of_lt hyear] at hdom hlt
        simp only [day, dayOfEra, dayOfYear, monthStart] at hdom hlt ⊢
        omega
      next hyear =>
        rw [yearEnd, if_pos (by omega)] at hdom hlt
        simp only [day, dayOfEra, dayOfYear, monthStart, yearStart] at hdom hlt ⊢
        omega

end

/-- Every day count is the day of a date. -/
theorem exists_valid_day (z : Int) : ∃ p : MarchDate, p.Valid ∧ p.day = z := by
  obtain ⟨doe, hdoe⟩ : ∃ doe, (z + 719468) % 146097 = doe := ⟨_, rfl⟩
  obtain ⟨year, -, hy0, hy1, hstart, hend⟩ := year_of_day (doe := doe) (by omega) (by omega)
  have hlt : doe < yearEnd year := by
    rw [yearEnd]
    split
    next => omega
    next hyear => exact hend.resolve_right hyear
  have hlen := (yearLength_bounds hy0 hy1).2
  obtain ⟨month, hm⟩ : ∃ month, (5 * (doe - yearStart year) + 2) / 153 = month := ⟨_, rfl⟩
  refine ⟨⟨(z + 719468) / 146097, year, month, doe - yearStart year - monthStart month + 1⟩,
    ⟨hy0, hy1, ?_, ?_, ?_, ?_⟩, ?_⟩
  · simp only
    omega
  · simp only
    omega
  · simp only [monthStart]
    omega
  · simp only [dayOfYear, monthEnd, monthStart]
    split <;> omega
  · simp only [day, dayOfEra, dayOfYear]
    omega

/-! ## The calendar's years and months -/

/-- The number of days of a month of the calendar, by the leap years of R114. -/
def calendarLength (y m : Int) : Int :=
  if m = 2 then (if y % 4 = 0 ∧ (y % 100 ≠ 0 ∨ y % 400 = 0) then 29 else 28)
  else if m = 4 ∨ m = 6 ∨ m = 9 ∨ m = 11 then 30 else 31

theorem calendarLength_le (y m : Int) : calendarLength y m ≤ 31 := by
  rw [calendarLength]
  split_ifs <;> decide

section
variable {p : MarchDate} {y m d : Int}

/-- January and February, the months 10 and 11 from March, are of the next calendar year. -/
theorem civil_eq_iff : p.civil = (y, m, d) ↔ d = p.dom ∧
    (p.month < 10 ∧ y = 400 * p.era + p.year ∧ m = p.month + 3 ∨
      10 ≤ p.month ∧ y = 400 * p.era + p.year + 1 ∧ m = p.month - 9) := by
  rw [civil]
  split <;> simp only [Prod.mk.injEq] <;> omega

variable (h : p.Valid) (hc : p.civil = (y, m, d))
include h hc

theorem Valid.month_bounds : 1 ≤ m ∧ m ≤ 12 := by
  have hm0 := h.month_nonneg
  have hm1 := h.month_le
  rw [civil_eq_iff] at hc
  omega

/-- The months from March are those of the calendar. -/
theorem Valid.monthEnd_eq : monthEnd p.year p.month = monthStart p.month + calendarLength y m := by
  obtain ⟨hy0, hy1, hm0, hm1, -, -⟩ := h
  rw [civil_eq_iff] at hc
  rw [monthEnd, calendarLength]
  split
  next hfeb =>
    have hstart : monthStart 11 = 337 := by decide
    obtain ⟨rfl, rfl⟩ : y = 400 * p.era + p.year + 1 ∧ m = 2 := by omega
    rw [yearEnd_sub_yearStart hy0 hy1 p.era, hfeb, if_pos rfl, hstart]
    split <;> rfl
  next hfeb =>
    rw [monthStart_succ hm0 (by omega), if_neg (c := m = 2) (by omega)]
    congr 2
    exact propext (by omega)

theorem Valid.dom_bounds : 1 ≤ d ∧ d ≤ calendarLength y m := by
  have hlt := h.dayOfYear_lt
  have hdom := h.dom_pos
  rw [h.monthEnd_eq hc, dayOfYear] at hlt
  obtain ⟨hd, -⟩ := civil_eq_iff.1 hc
  omega

/-- R114: the next date is the next day of the month, the first of the next month, or 1 January. -/
theorem Valid.next_civil : p.next.civil =
    if d < calendarLength y m then (y, m, d + 1) else if m < 12 then (y, m + 1, 1) else (y + 1, 1, 1) := by
  have hend := h.monthEnd_eq hc
  have ⟨_, _, hm0, hm1, _, _⟩ := h
  rw [civil_eq_iff] at hc
  have hiff : p.dayOfYear + 1 < monthEnd p.year p.month ↔ d < calendarLength y m := by
    rw [hend, dayOfYear]
    omega
  simp only [next, hiff]
  split
  next => exact civil_eq_iff.2 (hc.imp (congrArg (· + 1)) id)
  next =>
    split_ifs
    all_goals
      refine civil_eq_iff.2 ⟨rfl, ?_⟩
      simp only
      omega

end

end MarchDate

/-- R115: up to day 2932896, the day of TS_MAX, a year has at most four digits, and a month and a day at most two. -/
theorem civilFromDays_bounds {n : Nat} (hn : n ≤ 2932896) {y m d : Int} (hc : civilFromDays n = (y, m, d)) :
    0 ≤ y ∧ y ≤ 9999 ∧ 1 ≤ m ∧ m ≤ 12 ∧ 1 ≤ d ∧ d ≤ 31 := by
  obtain ⟨p, hp, hday⟩ := MarchDate.exists_valid_day n
  rw [← hday, hp.civilFromDays_day] at hc
  obtain ⟨hm0, hm1⟩ := hp.month_bounds hc
  obtain ⟨hd0, hd1⟩ := hp.dom_bounds hc
  have hle := MarchDate.calendarLength_le y m
  refine ⟨?_, ?_, hm0, hm1, hd0, hd1.trans hle⟩
  · have hlt := hp.dayOfEra_lt
    have hy0 := hp.year_nonneg
    simp only [MarchDate.day] at hday
    rw [MarchDate.civil_eq_iff] at hc
    omega
  · have hy1 := hp.year_le
    have hd := hp.dom_pos
    have hera : p.era ≤ 24 := by
      have hdoe := hp.dayOfEra_nonneg
      simp only [MarchDate.day] at hday
      omega
    rw [MarchDate.civil_eq_iff] at hc
    simp only [MarchDate.day, MarchDate.dayOfEra, MarchDate.dayOfYear, yearStart, monthStart] at hday
    omega

end Sys2Proof.Machine
end

section
/-! SUPPORT. TIMESTAMP and LINE (44_record_formatter.md R115, R116): the characters of a time by their positions, and printable texts. -/

namespace Sys2Proof.Machine

/-! ## The text of a time -/

/-- R115's text of a date and a time of day. -/
def isoText (y mo d h mi s ms : Nat) : Text :=
  dec4 y ++ ascii ['-'] ++ dec2 mo ++ ascii ['-'] ++ dec2 d ++ ascii ['T'] ++ dec2 h ++ ascii [':'] ++ dec2 mi ++ ascii [':']
    ++ dec2 s ++ ascii ['.'] ++ dec3 ms

theorem timestampText_eq_isoText {ts : BitVec 64} {y m d : Int} (hc : civilFromDays ((ts.toNat / 86400000 : Nat) : Int) = (y, m, d)) :
    timestampText ts = isoText y.toNat m.toNat d.toNat (ts.toNat % 86400000 / 3600000) (ts.toNat % 86400000 / 60000 % 60)
      (ts.toNat % 86400000 / 1000 % 60) (ts.toNat % 86400000 % 1000) := by
  simp only [timestampText, hc, isoText]

section
variable {y mo d h mi s ms : Nat}

/-- The 23 characters one by one. -/
theorem isoText_eq_chars : isoText y mo d h mi s ms =
    [digit (y / 1000 % 10), digit (y / 100 % 10), digit (y / 10 % 10), digit (y % 10), 0x2D, digit (mo / 10 % 10), digit (mo % 10), 0x2D,
      digit (d / 10 % 10), digit (d % 10), 0x54, digit (h / 10 % 10), digit (h % 10), 0x3A, digit (mi / 10 % 10), digit (mi % 10), 0x3A,
      digit (s / 10 % 10), digit (s % 10), 0x2E, digit (ms / 100 % 10), digit (ms / 10 % 10), digit (ms % 10)] := rfl

theorem length_isoText : (isoText y mo d h mi s ms).length = 23 := by
  rw [isoText_eq_chars]
  rfl

theorem isoText_separators : [4, 7, 10, 13, 16, 19].map (fun i => (isoText y mo d h mi s ms).getD i 0)
    = ascii ['-', '-', 'T', ':', ':', '.'] := by
  rw [isoText_eq_chars]
  rfl

theorem isoText_digits : ∀ i ∈ [0, 1, 2, 3, 5, 6, 8, 9, 11, 12, 14, 15, 17, 18, 20, 21, 22],
    IsDecimal ((isoText y mo d h mi s ms).getD i 0) := by
  simp [isoText_eq_chars, isDecimal_digit_mod]

theorem isoText_numbers (hy : y < 10000) (hmo : mo < 100) (hd : d < 100) (hh : h < 100) (hmi : mi < 100) (hs : s < 100) (hms : ms < 1000) :
    let num (i k : Nat) := decimalValue (((isoText y mo d h mi s ms).drop i).take k)
    num 0 4 = y ∧ num 5 2 = mo ∧ num 8 2 = d ∧ num 11 2 = h ∧ num 14 2 = mi ∧ num 17 2 = s ∧ num 20 3 = ms := by
  rw [isoText_eq_chars]
  exact ⟨decimalValue_dec4 hy, decimalValue_dec2 hmo, decimalValue_dec2 hd, decimalValue_dec2 hh, decimalValue_dec2 hmi,
    decimalValue_dec2 hs, decimalValue_dec3 hms⟩

end

/-! ## Printable characters -/

/-- A text of the characters that R116 allows before the line's end. -/
abbrev Printable (text : Text) : Prop := ∀ c ∈ text, 0x20 ≤ c.toNat ∧ c.toNat ≤ 0x7E

theorem Printable.append {a b : Text} (ha : Printable a) (hb : Printable b) : Printable (a ++ b) :=
  List.forall_mem_append.2 ⟨ha, hb⟩

theorem printable_of_isDecimal {text : Text} (h : ∀ c ∈ text, IsDecimal c) : Printable text := fun c hc =>
  ⟨Nat.le_trans (by decide) (h c hc).1, (h c hc).2.trans (by decide)⟩

theorem printable_isoText (y mo d h mi s ms : Nat) : Printable (isoText y mo d h mi s ms) := by
  have h2 (v : Nat) : Printable (dec2 v) := printable_of_isDecimal isDecimal_of_mem_dec2
  have h3 (v : Nat) : Printable (dec3 v) := printable_of_isDecimal isDecimal_of_mem_dec3
  have h4 (v : Nat) : Printable (dec4 v) := printable_of_isDecimal isDecimal_of_mem_dec4
  have hdash : Printable (ascii ['-']) := by decide
  have hT : Printable (ascii ['T']) := by decide
  have hcolon : Printable (ascii [':']) := by decide
  have hdot : Printable (ascii ['.']) := by decide
  exact h4 y |>.append hdash |>.append (h2 mo) |>.append hdash |>.append (h2 d) |>.append hT |>.append (h2 h) |>.append hcolon
    |>.append (h2 mi) |>.append hcolon |>.append (h2 s) |>.append hdot |>.append (h3 ms)

theorem printable_timestampText (ts : BitVec 64) : Printable (timestampText ts) := by
  rcases hc : civilFromDays ((ts.toNat / 86400000 : Nat) : Int) with ⟨y, m, d⟩
  rw [timestampText_eq_isoText hc]
  exact printable_isoText _ _ _ _ _ _ _

theorem printable_statusTokenText (st : Status) : Printable (statusTokenText st) := by
  cases st <;> decide

theorem printable_decU8Text (v : Byte) : Printable (decU8Text v) := printable_of_isDecimal isDecimal_of_mem_decU8Text

theorem hexDigit_printable : ∀ v < 16, 0x20 ≤ (hexDigit v).toNat ∧ (hexDigit v).toNat ≤ 0x7E := by decide

theorem printable_hexTail (f : Frame) : Printable (hexTail f) := by
  induction f with
  | nil => exact List.forall_mem_nil _
  | cons b f ih =>
    rw [hexTail_cons]
    exact List.forall_mem_cons.2 ⟨by decide, List.forall_mem_cons.2 ⟨hexDigit_printable _ (byte_div_lt b),
      List.forall_mem_cons.2 ⟨hexDigit_printable _ (byte_mod_lt b), ih⟩⟩⟩

theorem printable_hexFrameText (f : Frame) : Printable (hexFrameText f) := by
  rw [hexFrameText_eq_drop]
  exact fun c hc => printable_hexTail f c (List.mem_of_mem_drop hc)

/-! ## The line -/

/-- R116: the four fields of a line, without its end. -/
def lineFields (st : Status) (slave : Byte) (ts : BitVec 64) (f : Frame) : Text :=
  ascii "DATE=".toList ++ timestampText ts ++ ascii ";ERR=".toList ++ statusTokenText st
    ++ ascii ";FRAME=".toList ++ hexFrameText f ++ ascii ";SLAVE=".toList ++ decU8Text slave

theorem lineText_eq (st : Status) (slave : Byte) (ts : BitVec 64) (f : Frame) :
    lineText st slave ts f = lineFields st slave ts f ++ [0x0A] := rfl

theorem printable_lineFields (st : Status) (slave : Byte) (ts : BitVec 64) (f : Frame) : Printable (lineFields st slave ts f) := by
  have hdate : Printable (ascii "DATE=".toList) := by decide
  have herr : Printable (ascii ";ERR=".toList) := by decide
  have hframe : Printable (ascii ";FRAME=".toList) := by decide
  have hslave : Printable (ascii ";SLAVE=".toList) := by decide
  exact hdate |>.append (printable_timestampText ts) |>.append herr |>.append (printable_statusTokenText st)
    |>.append hframe |>.append (printable_hexFrameText f) |>.append hslave |>.append (printable_decU8Text slave)

end Sys2Proof.Machine
end

section
/-! The record formatter: the statements of 44_record_formatter.md R110 to R116. -/

open Sys2Proof Sys2Proof.Machine

/-- Settles O38: each text has its own equation, and DEC_U8 is the numeral of the least width that holds the value. -/
theorem byteTextsAreDriven : Obligations.ByteTextsAreDriven := by
  intro s
  refine ⟨fun b => ?_, fun st => ?_, fun v => ?_⟩
  · rw [← hexDigit_eq_table _ (byte_div_lt b), ← hexDigit_eq_table _ (byte_mod_lt b)]
    exact exec_hexByte b s
  · cases st <;> exact exec_statusToken _ s
  · exact ⟨_, exec_decU8 v s, decimalValue_decU8Text v, isDecimal_of_mem_decU8Text, length_decU8Text v⟩

/-- Settles O39: byte `i` and the dash before it are the characters from `3 * i` of the text with a dash before the first byte too. -/
theorem hexFrameIsDashJoined : Obligations.HexFrameIsDashJoined := by
  refine fun s f => ⟨_, exec_hexFrame f s, ?_, fun i hi => ?_, fun i hi => ?_⟩
  · rw [hexFrameText_eq_drop, List.length_drop, length_hexTail]
  · rw [getD_hexFrameText, getD_hexFrameText, getD_hexTail hi (by decide), Nat.add_assoc, getD_hexTail hi (by decide)]
    rfl
  · exact (getD_hexFrameText f _).trans (getD_hexTail (k := 0) hi (by decide))

/-- Settles O40: a day count is the day of a date from March, and the next day is the day of the next date. -/
theorem civilFromDaysIsGregorian : Obligations.CivilFromDaysIsGregorian := by
  refine ⟨fun s z => exec_civilFromDays z s, by decide, fun z => ?_⟩
  obtain ⟨p, hp, rfl⟩ := MarchDate.exists_valid_day z
  rcases hc : p.civil with ⟨y, m, d⟩
  rw [← hp.next_day, hp.civilFromDays_day, hp.next_valid.civilFromDays_day, hc, hp.next_civil hc]
  obtain ⟨hm0, hm1⟩ := hp.month_bounds hc
  obtain ⟨hd0, hd1⟩ := hp.dom_bounds hc
  exact ⟨hm0, hm1, hd0, hd1, rfl⟩

/-- Settles O41: within TS_MAX every part of the date and the time fits the width of its numeral. -/
theorem timestampIsIsoText : Obligations.TimestampIsIsoText := by
  refine fun s ts => ⟨fun hts => ⟨_, timestampText ts, exec_timestamp_of_le hts s, rfl, ?_⟩, fun hts => exec_timestamp_of_gt hts s⟩
  rcases hc : civilFromDays ((ts.toNat / 86400000 : Nat) : Int) with ⟨y, m, d⟩
  obtain ⟨hy0, hy1, hm0, hm1, hd0, hd1⟩ := civilFromDays_bounds (by omega) hc
  rw [timestampText_eq_isoText hc]
  obtain ⟨hy, hm, hd, htime⟩ := isoText_numbers (y := y.toNat) (mo := m.toNat) (d := d.toNat)
    (h := ts.toNat % 86400000 / 3600000) (mi := ts.toNat % 86400000 / 60000 % 60) (s := ts.toNat % 86400000 / 1000 % 60)
    (ms := ts.toNat % 86400000 % 1000) (by omega) (by omega) (by omega) (by omega) (by omega) (by omega) (by omega)
  refine ⟨length_isoText, ⟨?_, ?_, ?_, htime⟩, isoText_digits, isoText_separators⟩
  · exact (congrArg Nat.cast hy).trans (Int.toNat_of_nonneg hy0)
  · exact (congrArg Nat.cast hm).trans (Int.toNat_of_nonneg (by omega))
  · exact (congrArg Nat.cast hd).trans (Int.toNat_of_nonneg (by omega))

/-- Settles O42: LINE drives its four fields and the LF, and each field is printable. -/
theorem lineHasFourFields : Obligations.LineHasFourFields := by
  intro s st slave ts f hts
  obtain ⟨fmt, hline, hexec⟩ := exec_line_of_le hts st slave f s
  rw [lineText_eq] at hline
  refine ⟨driveFmt fmt s, hexec, rfl, hline, ?_⟩
  rw [driveFmt_fmt, hline, List.dropLast_concat]
  exact printable_lineFields st slave ts f

end

section
/-! SUPPORT. The record pipeline (45_record_pipeline.md): E_CLASSIFY by VALIDATE and LINE of the head frame, the queue's entries, and
QUEUE_COMMIT by the queue that the pop leaves. -/

namespace Sys2Proof.Machine

/-! ## E_CLASSIFY -/

section
variable (crc : BitVec 16) (f : Frame) (ts : BitVec 64)

theorem validateWith_len : (validateWith crc f ts).len = BitVec.ofNat 9 f.length := by
  simp only [validateWith]
  split_ifs <;> rfl

theorem validateWith_ts : (validateWith crc f ts).ts = ts := by
  simp only [validateWith]
  split_ifs <;> rfl

end

/-- R103: VALIDATE reads the computed CRC of a frame of at least 5 bytes only. -/
theorem validateWith_eq_validate {crc : BitVec 16} {f : Frame} (ts : BitVec 64) (h : 5 ≤ f.length → crc = crc16 (payload f)) :
    validateWith crc f ts = validate f ts := by
  obtain hshort | hlong := Nat.lt_or_ge f.length 5
  · exact (validateWith_short ts hshort).trans (validateWith_short ts hshort).symm
  · rw [h hlong, validate]

/-- R127: the record that E_CLASSIFY forms. -/
def headRecord (s : State) : Record := validateWith s.em.crc (headFrame s) s.q.headEntry.ts

/-- R127: the record's time is the head entry's. -/
theorem headRecord_ts (s : State) : (headRecord s).ts = s.q.headEntry.ts := validateWith_ts _ _ _

/-- R127: the record's length is the head entry's. -/
theorem headRecord_len (s : State) : (headRecord s).len = s.q.headEntry.len := by
  rw [headRecord, validateWith_len, headFrame_length, headLen, BitVec.ofNat_toNat, BitVec.setWidth_eq]

/-- Writing the head entry's length and time apart, as E_CLASSIFY does, changes nothing of VALIDATE's record. -/
theorem headRecord_with_head (s : State) :
    { headRecord s with len := s.q.headEntry.len, ts := s.q.headEntry.ts } = headRecord s := by
  rw [← headRecord_len, ← headRecord_ts]

/-- R127: the record first, then the line of the record, then the emitter's registers. -/
theorem exec_eClassify (s : State) : exec .eClassify s =
    andThen (exec (.line (headRecord s).status (headRecord s).slave (headRecord s).ts (headFrame s)) (s.setRecord (headRecord s)))
      fun t => .next (t.setEm { t.em with line := t.sig.fmt.line, lidx := 0, state := .line }) := by
  conv_rhs => rw [← headRecord_with_head]
  change andThen (classifyHead s) _ = _
  rw [classifyHead_validate]
  rfl

/-- R127: within TS_MAX the record, the formatter's drives and the emitter's registers are all that is written. -/
theorem exec_eClassify_of_le {s : State} (h : s.q.headEntry.ts.toNat ≤ 253402300799999) :
    ∃ fmt : Fmt, fmt.line = lineText (headRecord s).status (headRecord s).slave (headRecord s).ts (headFrame s) ∧
      exec .eClassify s = .next ((driveFmt fmt (s.setRecord (headRecord s))).setEm
        { s.em with state := .line, lidx := 0, line := fmt.line }) := by
  rw [← headRecord_ts] at h
  obtain ⟨fmt, hline, hexec⟩ :=
    exec_line_of_le h (headRecord s).status (headRecord s).slave (headFrame s) (s.setRecord (headRecord s))
  refine ⟨fmt, hline, ?_⟩
  rw [exec_eClassify, hexec]
  rfl

/-- R115, R127: a later time is refused. -/
theorem exec_eClassify_of_gt {s : State} (h : 253402300799999 < s.q.headEntry.ts.toNat) :
    exec .eClassify s = .refused (.timestampOutOfRange s.q.headEntry.ts) := by
  rw [← headRecord_ts] at h ⊢
  have hline := (execLine_eq (headRecord s).status (headRecord s).slave (headRecord s).ts (headFrame s)
    (s.setRecord (headRecord s))).trans (if_pos h)
  rw [exec_eClassify]
  exact congrArg (andThen · _) hline

/-! ## The queue's entries -/

section
variable (q : Queue) (k : BitVec 1)

@[simp] theorem setEntry_head (e : QEntry) : (q.setEntry k e).head = q.head := by
  rw [Queue.setEntry]
  split <;> rfl

@[simp] theorem entry_setEntry (e : QEntry) : (q.setEntry k e).entry k = e := by
  obtain rfl | rfl := BitVec.eq_zero_or_eq_one k <;> rfl

@[simp] theorem entry_setEntry_succ (e : QEntry) : (q.setEntry k e).entry (k + 1) = q.entry (k + 1) := by
  obtain rfl | rfl := BitVec.eq_zero_or_eq_one k <;> rfl

end

theorem wf_entry_bytes {q : Queue} (k : BitVec 1) (h0 : q.e0.bytes.wf = true) (h1 : q.e1.bytes.wf = true) :
    (q.entry k).bytes.wf = true := by
  rw [Queue.entry]
  split
  · exact h0
  · exact h1

/-! ## The pop and the push -/

/-- R120: a pop moves the head and the count. -/
theorem popQueue_eq (pop : Bool) (q : Queue) : popQueue pop q =
    { q with head := if pop then q.head + 1 else q.head, count := if pop then q.count - 1 else q.count } := by
  cases pop <;> rfl

/-- R120: the tail index in numbers. -/
theorem tailIndex_eq (q : Queue) : tailIndex q = BitVec.ofNat 1 (q.head.toNat + q.count.toNat) := by
  rw [tailIndex, BitVec.ofNat_add, BitVec.ofNat_toNat, BitVec.ofNat_toNat, BitVec.setWidth_eq]

/-- R30, R120: the frame's bytes are written and those above it keep their values. -/
theorem memRead_pushEntry {p : Push} {e : QEntry} (he : e.bytes.wf = true) (hp : p.bytes.length ≤ 256) (i : Nat) :
    memRead (pushEntry p e).bytes i = if h : i < p.bytes.length then p.bytes[i] else memRead e.bytes i := by
  rw [pushEntry, memRead_memWriteAll he (by rwa [Nat.zero_add])]
  by_cases h : i < p.bytes.length <;> simp [h]

theorem pushEntry_len_toNat {p : Push} (hp : p.bytes.length ≤ 256) (e : QEntry) : (pushEntry p e).len.toNat = p.bytes.length := by
  rw [pushEntry, BitVec.toNat_ofNat]
  omega

/-- R120: the push, on the queue that the pop leaves. -/
def pushQueue (p : Push) (q : Queue) : Queue :=
  { q.setEntry (tailIndex q) (pushEntry p (q.entry (tailIndex q))) with count := q.count + 1 }

section
variable (p : Push) (q : Queue)

@[simp] theorem pushQueue_head : (pushQueue p q).head = q.head := setEntry_head _ _ _

@[simp] theorem pushQueue_count : (pushQueue p q).count = q.count + 1 := rfl

@[simp] theorem entry_pushQueue_tail : (pushQueue p q).entry (tailIndex q) = pushEntry p (q.entry (tailIndex q)) :=
  entry_setEntry _ _ _

@[simp] theorem entry_pushQueue_other : (pushQueue p q).entry (tailIndex q + 1) = q.entry (tailIndex q + 1) :=
  entry_setEntry_succ _ _ _

end

/-! ## QUEUE_COMMIT -/

section
variable {s : State}

theorem exec_queueCommit_of_none (h : s.sig.push = none) : exec .queueCommit s = .next (s.setQ (popQueue s.sig.pop s.q)) := by
  change queueCommit s = _
  rw [queueCommit, h]

/-- R120: with an entry free after the pop. -/
theorem exec_queueCommit_of_room {p : Push} (h : s.sig.push = some p) (hc : (popQueue s.sig.pop s.q).count.toNat < 2) :
    exec .queueCommit s = .next (s.setQ (pushQueue p (popQueue s.sig.pop s.q))) := by
  change queueCommit s = _
  rw [queueCommit, h]
  exact if_pos hc

/-- R120, R136: with no entry free after the pop. -/
theorem exec_queueCommit_of_full {p : Push} (h : s.sig.push = some p) (hc : 2 ≤ (popQueue s.sig.pop s.q).count.toNat) :
    exec .queueCommit s = .next (raiseFault (.overrun (BitVec.ofNat 9 p.bytes.length) p.ts)
      { s with q := popQueue s.sig.pop s.q, flags := { s.flags with overrun := true } }) := by
  change queueCommit s = _
  rw [queueCommit, h]
  exact if_neg hc.not_gt

end

end Sys2Proof.Machine
end

section
/-! The record pipeline: the statements of 45_record_pipeline.md R120 and R127. -/

open Sys2Proof Sys2Proof.Machine

/-- Settles O37: the record is VALIDATE's, and LINE, which alone can refuse, runs on it. -/
theorem classifyFormsRecordAndLine : Obligations.ClassifyFormsRecordAndLine := by
  refine ⟨fun s hst => ?_, fun s => ⟨fun hts => ?_, exec_eClassify_of_gt⟩⟩
  · rw [decode_esel, hst, emitterOp]
  · obtain ⟨fmt, hline, hexec⟩ := exec_eClassify_of_le hts
    refine ⟨_, hexec, rfl, fun hcrc => ?_, ?_, ?_⟩
    · exact validateWith_eq_validate _ fun hn => hcrc (hn.trans_eq (headFrame_length s))
    · rw [setEm_em, setEm_record, driveFmt_record, setRecord_record, hline]
    · simp

/-- Settles O49: the queue after the pop decides, and a push into it writes the tail entry alone. -/
theorem queueCommitPopsThenPushes : Obligations.QueueCommitPopsThenPushes := by
  intro s h1 c1
  have hpop : popQueue s.sig.pop s.q = { s.q with head := h1, count := c1 } := popQueue_eq _ _
  refine ⟨fun hnone => ?_, fun p hp hlen => ⟨fun hfull => ?_, fun hroom hwf0 hwf1 => ?_⟩⟩
  · rw [exec_queueCommit_of_none hnone, hpop]
    rfl
  · rw [exec_queueCommit_of_full hp (by rwa [hpop]), hpop]
    rfl
  · have hexec := exec_queueCommit_of_room hp (by rwa [hpop])
    rw [hpop] at hexec
    refine ⟨_, _, hexec, tailIndex_eq _, pushQueue_head _ _, pushQueue_count _ _, ?_, ?_, fun i => ?_, entry_pushQueue_other _ _⟩
    · rw [entry_pushQueue_tail]
      exact pushEntry_len_toNat hlen _
    · rw [entry_pushQueue_tail]
      rfl
    · rw [entry_pushQueue_tail]
      exact memRead_pushEntry (wf_entry_bytes _ hwf0 hwf1) hlen i

end

section
/-! SUPPORT. A step by its reset input (70_reset_and_hazards.md R146, R148). -/

namespace Sys2Proof.Machine

/-- R146: nothing of the state before a reset cycle is left but the inputs and the run's fault record. -/
theorem endCycle_resetCycle (s : State) :
    endCycle (resetCycle s) = .afterReset s.pins.cfg (nextPins s) s.script.tail s.faults := rfl

theorem step_eq_afterReset {s : State} (h : s.pins.rst = true) :
    step s = .next (.afterReset s.pins.cfg (nextPins s) s.script.tail s.faults) := by
  rw [step_of_rst h, endCycle_resetCycle]

/-- R148. -/
theorem step_of_no_reset {s : State} (hrst : s.pins.rst = false) (hseen : s.resetSeen = false) :
    step s = .refused .noReset := by
  simp only [step, clockEdge, hrst, hseen, Bool.false_eq_true, Bool.not_false, if_false, if_true]

end Sys2Proof.Machine
end

section
/-! Reset: the statements of 70_reset_and_hazards.md R146 to R148. -/

open Sys2Proof Sys2Proof.Machine

/-- Settles O1: the step answers `State.afterReset`, whose parts are the table's rows. -/
theorem resetCycleLeavesResetTable : Obligations.ResetCycleLeavesResetTable := by
  intro s hrst
  refine ⟨_, step_eq_afterReset hrst, ?uart, ?cState, ?cTimer, ?cLen, ?qHead, ?qCount, ?em, ?record, ?flags, ?cfg, ?out⟩ <;> rfl

/-- Settles O5: `clockEdge` asks for a reset cycle, and one sets `resetSeen`. -/
theorem runWithoutResetIsRefused : Obligations.RunWithoutResetIsRefused := by
  intro s hseen
  constructor
  · exact fun hrst => step_of_no_reset hrst hseen
  · exact fun hrst => ⟨_, step_eq_afterReset hrst, rfl⟩

/-- Settles O6: the second cycle writes again the constants that the first one left, and latches its own configuration. -/
theorem longerResetChangesOnlyConfiguration : Obligations.LongerResetChangesOnlyConfiguration := by
  intro s t hs hst ht
  have hreset : t = .afterReset s.pins.cfg (nextPins s) s.script.tail s.faults := by
    rw [step_eq_afterReset hs] at hst
    exact (Host.Outcome.next.inj hst).symm
  rw [step_eq_afterReset ht]
  subst hreset
  rfl

end

section
/-! SUPPORT. The selector tables against the encoder (30_encoding.md R51 to R55): a decoded operation is the operation of a row that the
word matches, and the encoder fills the open bits of that very row. -/

namespace Sys2Proof

/-- What `decode` selects are the operations of the rows that the word matches. -/
theorem exists_row_of_mem_decode {sel : Selector} {ops : List Instr} {i : Instr} (h : decode sel = .ok ops) (hi : i ∈ ops) :
    ∃ r ∈ selectorRows sel.engine, rowMatches sel.word r = true ∧ r.op = i := by
  unfold decode at h
  split at h
  · cases h
  · rename_i rows _
    cases h
    obtain ⟨r, hr, rfl⟩ := List.mem_map.1 hi
    obtain ⟨hmem, hmatch⟩ := List.mem_filter.1 hr
    exact ⟨r, hmem, hmatch, rfl⟩

/-- A word that a row matches is the row's pattern with the open bits filled from the word itself. -/
theorem fillFree_of_rowMatches {w : BitVec 8} {r : Row} (h : rowMatches w r = true) : fillFree r.pattern r.mask w = w := by
  have hp : r.pattern = w &&& r.mask := (beq_iff_eq.1 h).symm
  rw [fillFree, hp]
  apply BitVec.eq_of_getLsbD_eq
  intro j hj
  simp only [BitVec.getLsbD_or, BitVec.getLsbD_and, BitVec.getLsbD_not, hj, decide_true, Bool.true_and]
  cases w.getLsbD j <;> cases r.mask.getLsbD j <;> rfl

/-- The encoder fills the bits that the operation's row leaves open. -/
theorem encode_row {e : Engine} {r : Row} (hr : r ∈ selectorRows e) (free : BitVec 8) :
    encode r.op free = some (engineSelector e (fillFree r.pattern r.mask free).toNat) := by
  revert r
  cases e <;> simp [selectorRows, uselRows, cselRows, kselRows, vselRows, eselRows, encode, engineSelector]

/-- A selector is its engine's selector of its word. -/
theorem engineSelector_word (sel : Selector) : engineSelector sel.engine sel.word.toNat = sel := by
  have back {n : Nat} (hn : n ≤ 8) (w : BitVec n) : BitVec.ofNat n (w.setWidth 8).toNat = w := by
    rw [BitVec.ofNat_toNat, BitVec.setWidth_setWidth_of_le _ hn, BitVec.setWidth_eq]
  cases sel with
  | usel w => exact congrArg Selector.usel (BitVec.ofNat_toNat 8 w |>.trans w.setWidth_eq)
  | csel w => exact congrArg Selector.csel (back (by decide) w)
  | ksel w => exact congrArg Selector.ksel (back (by decide) w)
  | vsel w => exact congrArg Selector.vsel (back (by decide) w)
  | esel w => exact congrArg Selector.esel (back (by decide) w)

/-- R51 to R55: a word that decodes to an operation is one of that operation's words. -/
theorem encode_word_of_mem_decode {sel : Selector} {ops : List Instr} {i : Instr} (h : decode sel = .ok ops) (hi : i ∈ ops) :
    encode i sel.word = some sel := by
  obtain ⟨r, hr, hm, rfl⟩ := exists_row_of_mem_decode h hi
  rw [encode_row hr, fillFree_of_rowMatches hm, engineSelector_word]

/-- R51 to R55: each word that an operation's row admits decodes to it. -/
theorem selectorWord_statement (i : Instr) : Laws.SelectorWord.Statement i := by
  cases i with
  | uStopped => exact Laws.SelectorWord.uStopped
  | uIdleWait => exact Laws.SelectorWord.uIdleWait
  | uStartDetect => exact Laws.SelectorWord.uStartDetect
  | uStartCount => exact Laws.SelectorWord.uStartCount
  | uStartConfirm => exact Laws.SelectorWord.uStartConfirm
  | uStartReject => exact Laws.SelectorWord.uStartReject
  | uDataCount => exact Laws.SelectorWord.uDataCount
  | uDataSample => exact Laws.SelectorWord.uDataSample
  | uDataLastNopar => exact Laws.SelectorWord.uDataLastNopar
  | uDataLastPar => exact Laws.SelectorWord.uDataLastPar
  | uParCount => exact Laws.SelectorWord.uParCount
  | uParSample => exact Laws.SelectorWord.uParSample
  | uStopCount => exact Laws.SelectorWord.uStopCount
  | uStopSample => exact Laws.SelectorWord.uStopSample
  | uStopSampleFerr => exact Laws.SelectorWord.uStopSampleFerr
  | uWaitLow => exact Laws.SelectorWord.uWaitLow
  | uWaitRelease => exact Laws.SelectorWord.uWaitRelease
  | cStopped => exact Laws.SelectorWord.cStopped
  | cSettleWait => exact Laws.SelectorWord.cSettleWait
  | cSettleDrain => exact Laws.SelectorWord.cSettleDrain
  | cIdleWait => exact Laws.SelectorWord.cIdleWait
  | cIdleEmptyRead => exact Laws.SelectorWord.cIdleEmptyRead
  | cIdleFirstByte => exact Laws.SelectorWord.cIdleFirstByte
  | cColWait => exact Laws.SelectorWord.cColWait
  | cColSilenceClose => exact Laws.SelectorWord.cColSilenceClose
  | cColAppend => exact Laws.SelectorWord.cColAppend
  | cColFullClose => exact Laws.SelectorWord.cColFullClose
  | crcInit => exact Laws.SelectorWord.crcInit
  | crcByteIn => exact Laws.SelectorWord.crcByteIn
  | crcShift => exact Laws.SelectorWord.crcShift
  | crcShiftXor => exact Laws.SelectorWord.crcShiftXor
  | vShortFrame => exact Laws.SelectorWord.vShortFrame
  | vBadCrc => exact Laws.SelectorWord.vBadCrc
  | vOk => exact Laws.SelectorWord.vOk
  | vException => exact Laws.SelectorWord.vException
  | eIdleWait => exact Laws.SelectorWord.eIdleWait
  | eDequeueShort => exact Laws.SelectorWord.eDequeueShort
  | eDequeueCrc => exact Laws.SelectorWord.eDequeueCrc
  | eCrcStep => exact Laws.SelectorWord.eCrcStep
  | eCrcNextByte => exact Laws.SelectorWord.eCrcNextByte
  | eCrcDone => exact Laws.SelectorWord.eCrcDone
  | eClassify => exact Laws.SelectorWord.eClassify
  | eLineChar => exact Laws.SelectorWord.eLineChar
  | eLineLast => exact Laws.SelectorWord.eLineLast
  | hexByte b => exact Laws.SelectorWord.hexByte b
  | hexFrame f => exact Laws.SelectorWord.hexFrame f
  | statusToken st => exact Laws.SelectorWord.statusToken st
  | decU8 v => exact Laws.SelectorWord.decU8 v
  | civilFromDays z => exact Laws.SelectorWord.civilFromDays z
  | timestamp ts => exact Laws.SelectorWord.timestamp ts
  | line st v ts f => exact Laws.SelectorWord.line st v ts f
  | fatalEntry => exact Laws.SelectorWord.fatalEntry
  | queueCommit => exact Laws.SelectorWord.queueCommit

/-- The ten operations that no selector selects are those without a word. -/
theorem encode_eq_none_iff (i : Instr) (free : BitVec 8) : encode i free = none ↔
    (i = .crcInit ∨ (∃ b, i = .hexByte b) ∨ (∃ f, i = .hexFrame f) ∨ (∃ st, i = .statusToken st) ∨ (∃ v, i = .decU8 v)
      ∨ (∃ z, i = .civilFromDays z) ∨ (∃ ts, i = .timestamp ts) ∨ (∃ st v ts f, i = .line st v ts f)
      ∨ i = .fatalEntry ∨ i = .queueCommit) := by
  cases i <;> simp [encode]

end Sys2Proof
end

section
/-! The encodings: the statement of 30_encoding.md R51 to R55. -/

open Sys2Proof Sys2Proof.Machine

/-- Settles O7: the decoder's rows and the encoder's words have the same fixed bits, operation by operation. -/
theorem encodingAndDecodingAgree : Obligations.EncodingAndDecodingAgree :=
  ⟨fun i free sel _ h => selectorWord_statement i free sel h, fun _ _ _ h hi => encode_word_of_mem_decode h hi, encode_eq_none_iff⟩
end

section
/-! SUPPORT. A running step by its parts (00_scope.md R10), said once: the states between them, what each part sees of the start-of-cycle state,
and what the cycle keeps of each part. -/

namespace Sys2Proof.Machine

/-- The states that a running cycle from `s` passes: after the receiver, the collector, the emitter and the commit. Each part runs on the state
that the one before it left, and the remaining equations say which of it is still of the start of the cycle (`sees`), and which
part's result the cycle keeps (`kept`). -/
structure RunParts (s s1 s2 s3 s4 : State) : Prop where
  receiver : uartPart (fatalEntry (beginCycle s)) = .next s1
  collector : collectorPart (popPart s1) = .next s2
  emitter : emitterPart s2 = .next s3
  commit : queueCommit s3 = .next s4
  collector_sees_col : (popPart s1).col = s.col
  collector_sees_cfg : (popPart s1).cfg = s.cfg
  collector_sees_stop : (popPart s1).sig.stop = (fatalEntry (beginCycle s)).sig.stop
  collector_sees_fatal : (popPart s1).flags.fatal = (fatalEntry (beginCycle s)).flags.fatal
  collector_sees_no_push : (popPart s1).sig.push = none
  collector_keeps_flags : s2.flags = s1.flags
  emitter_sees_em : s2.em = s.em
  emitter_sees_q : s2.q = s.q
  emitter_sees_record : s2.record = s.record
  emitter_sees_out : s2.sig.out = outputs s
  commit_sees_q : s3.q = s.q
  /-- R119: `pop` is of the start-of-cycle state. -/
  commit_sees_pop : s3.sig.pop = popRequest s
  commit_sees_push : s3.sig.push = s2.sig.push
  commit_sees_flags : s3.flags = s1.flags
  commit_sees_faults : s3.faults = s2.faults
  uart_kept : s4.uart = s1.uart
  rx_kept : s4.sig.rx = s1.sig.rx
  col_kept : s4.col = s2.col
  push_kept : s4.sig.push = s2.sig.push
  em_kept : s4.em = s3.em
  record_kept : s4.record = s3.record
  out_kept : s4.sig.out = s3.sig.out
  fatal_kept : s4.flags.fatal = s1.flags.fatal
  perr_kept : s4.flags.perr = s1.flags.perr
  ferr_kept : s4.flags.ferr = s1.flags.ferr
  cfg_kept : s4.cfg = s.cfg
  script_kept : s4.script = s.script
  resetSeen_kept : s4.resetSeen = s.resetSeen

theorem RunParts.of_parts {s s1 s2 s3 s4 : State} (hu : uartPart (fatalEntry (beginCycle s)) = .next s1)
    (hc : collectorPart (popPart s1) = .next s2) (he : emitterPart s2 = .next s3) (hq : queueCommit s3 = .next s4) :
    RunParts s s1 s2 s3 s4 := by
  obtain ⟨_, _, _, _, _, _, _, -, h1⟩ := uartPart_effect rfl hu
  obtain ⟨_, _, _, _, _, h3⟩ := emitterPart_effect he
  obtain ⟨_, _, h2⟩ | ⟨_, h2⟩ := collectorPart_effect hc <;> obtain ⟨_, h4⟩ | ⟨_, _, h4⟩ := queueCommit_effect hq <;>
    subst h1 h2 h3 h4 <;>
    exact ⟨hu, hc, he, hq, rfl, rfl, rfl, rfl, rfl, rfl, rfl, rfl, rfl, rfl, rfl, Bool.or_self _, rfl, rfl, rfl, rfl, rfl, rfl, rfl, rfl, rfl,
      rfl, rfl, rfl, rfl, rfl, rfl, rfl⟩

/-- R146: the state after a reset cycle. -/
theorem eq_afterReset_of_step {s t : State} (hr : s.pins.rst = true) (h : step s = .next t) :
    t = .afterReset s.pins.cfg (nextPins s) s.script.tail s.faults :=
  (Host.Outcome.next.inj ((step_eq_afterReset hr).symm.trans h)).symm

theorem runParts_of_step {s t : State} (hr : s.pins.rst = false) (h : step s = .next t) :
    ∃ s1 s2 s3 s4, RunParts s s1 s2 s3 s4 ∧ t = endCycle s4 := by
  obtain ⟨hr', -⟩ | ⟨-, -, -, s1, s2, s3, s4, hu, hc, he, hq, ht⟩ := step_cases h
  · cases hr.symm.trans hr'
  · exact ⟨s1, s2, s3, s4, .of_parts hu hc he hq, ht⟩

/-- R134: `stop` of a cycle. -/
theorem fatalEntry_stop (s : State) : (fatalEntry s).sig.stop = (s.flags.fatal || s.pins.srcErr) := by
  rw [fatalEntry_sig]
  cases s.flags.fatal <;> cases s.pins.srcErr <;> rfl

/-- R134: `sts_fatal` after a cycle. -/
theorem fatalEntry_fatal (s : State) : (fatalEntry s).flags.fatal = (s.flags.fatal || s.pins.srcErr) := by
  rw [fatalEntry_flags]
  cases s.flags.fatal <;> cases s.pins.srcErr <;> rfl

theorem cfgLegal_of_step {s t : State} (hr : s.pins.rst = false) (h : step s = .next t) : cfgLegal s.cfg = true := by
  obtain ⟨hr', -⟩ | ⟨-, -, hl, -⟩ := step_cases h
  · cases hr.symm.trans hr'
  · exact hl

end Sys2Proof.Machine
end

section
/-! SUPPORT. The receiver's and the collector's part of a cycle by the operation they run (40_uart_rx.md, 41_frame_collector.md): for each
operation the conditions under which a cycle runs it, the registers it leaves, and the signals it drives; and the commit by its three outcomes
(45_record_pipeline.md R120). -/

namespace Sys2Proof.Machine

/-! ## The receiver -/

/-- A running receiver's operations: from the state in which the line is sampled, the registers and the receiver's signals after. -/
inductive UartMove (s : State) : Uart → Rx → Prop where
  | wait (hst : s.uart.state ∈ [UState.idle, .waitIdle]) : UartMove s s.uart .quiet
  | startDetect (hst : s.uart.state = .idle) : UartMove s { s.uart with state := .start, cnt := 1 } .quiet
  | count (hst : s.uart.state ∈ [UState.start, .data, .parity, .stop]) (hit : uHit s = false) :
      UartMove s { s.uart with cnt := s.uart.cnt + 1 } .quiet
  | startConfirm (hst : s.uart.state = .start) : UartMove s { s.uart with state := .data, cnt := 1, bit := 0 } .quiet
  | toIdle (hst : s.uart.state ∈ [UState.start, .waitIdle]) : UartMove s { s.uart with state := .idle } .quiet
  | dataSample (hst : s.uart.state = .data) :
      UartMove s { s.uart with shift := shiftIn s.sig.rxdS s.uart.shift, cnt := 1, bit := s.uart.bit + 1 } .quiet
  | dataLast (hst : s.uart.state = .data) {st : UState} (hst' : st ∈ [UState.parity, .stop]) :
      UartMove s { s.uart with shift := shiftIn s.sig.rxdS s.uart.shift, cnt := 1, state := st } .quiet
  | parSample (hst : s.uart.state = .parity) : UartMove s { s.uart with par := s.sig.rxdS, cnt := 1, state := .stop } .quiet
  | stopSample (hst : s.uart.state = .stop) (hit : uHit s = true) :
      UartMove s { s.uart with state := afterStop s.sig.rxdS } (deliveredRx s)

/-- An operation without signals sets no flag. -/
theorem uartEnd_quiet (u : Uart) (s : State) : uartEnd u .quiet s = (uartEnd u .quiet s).setFlags (stickRx .quiet s.flags) := by
  rw [stickRx_quiet]
  rfl

/-- The operation that a running receiver selects is one of the moves. -/
theorem exec_uartOp {s t : State} {i : Instr} {last par : Bool}
    (hi : uartOp false s.uart.state (uHit s) s.sig.rxdS last par = some i) (h : exec i s = .next t) :
    ∃ u rx, UartMove s u rx ∧ t = (uartEnd u rx s).setFlags (stickRx rx s.flags) := by
  have quiet {u : Uart} (hm : UartMove s u .quiet) (ht : .next (uartEnd u .quiet s) = (.next t : Result)) :
      ∃ u rx, UartMove s u rx ∧ t = (uartEnd u rx s).setFlags (stickRx rx s.flags) :=
    ⟨u, .quiet, hm, (Host.Outcome.next.inj ht).symm.trans (uartEnd_quiet u s)⟩
  cases hst : s.uart.state with
  | idle =>
    simp only [uartOp, hst, Bool.false_eq_true, if_false, Option.some.injEq] at hi
    split at hi <;> subst hi
    · exact quiet (.wait (by simp [hst])) h
    · exact quiet (.startDetect hst) h
  | start =>
    cases hit : uHit s <;> simp only [uartOp, hst, hit, Bool.false_eq_true, if_false, if_true, Option.some.injEq] at hi
    · subst hi
      exact quiet (.count (by simp [hst]) hit) h
    · split at hi <;> subst hi
      · exact quiet (.toIdle (by simp [hst])) h
      · exact quiet (.startConfirm hst) h
  | data =>
    cases hit : uHit s <;> simp only [uartOp, hst, hit, Bool.false_eq_true, if_false, if_true, Option.some.injEq] at hi
    · subst hi
      exact quiet (.count (by simp [hst]) hit) h
    · split at hi
      · split at hi <;> subst hi
        · exact quiet (.dataLast hst (by simp)) h
        · exact quiet (.dataLast hst (by simp)) h
      · subst hi
        exact quiet (.dataSample hst) h
  | parity =>
    cases hit : uHit s <;> simp only [uartOp, hst, hit, Bool.false_eq_true, if_false, if_true, Option.some.injEq] at hi <;> subst hi
    · exact quiet (.count (by simp [hst]) hit) h
    · exact quiet (.parSample hst) h
  | stop =>
    cases hit : uHit s <;> simp only [uartOp, hst, hit, Bool.false_eq_true, if_false, if_true, Option.some.injEq] at hi
    · subst hi
      exact quiet (.count (by simp [hst]) hit) h
    · split at hi <;> subst hi <;> exact ⟨_, _, .stopSample hst hit, (Host.Outcome.next.inj h).symm⟩
  | waitIdle =>
    simp only [uartOp, hst, Bool.false_eq_true, if_false, Option.some.injEq] at hi
    split at hi <;> subst hi
    · exact quiet (.toIdle (by simp [hst])) h
    · exact quiet (.wait (by simp [hst])) h
  | halt => simp [uartOp, hst] at hi
  | reserved => simp [uartOp, hst] at hi

/-- The operation that the receiver's conditions select in a cycle that samples the line, if any. -/
def receiverOp (s : State) : Option Instr :=
  uartOp s.sig.stop s.uart.state (uHit (sampleLine s)) s.uart.sync2 (s.uart.bit == 7) (parEn s.cfg)

theorem uartPart_of_op {s : State} {i : Instr} (h : receiverOp s = some i) : uartPart s = exec i (sampleLine s) := by
  rw [receiverOp] at h
  rw [uartPart_eq, h]

theorem uartPart_of_no_op {s : State} (h : receiverOp s = none) :
    uartPart s = .next (raiseFault (.unreachable .uart (usel (sampleLine s))) (sampleLine s)) := by
  rw [receiverOp] at h
  rw [uartPart_eq, h]

theorem receiverOp_of_stop {s : State} (h : s.sig.stop = true) : receiverOp s = some .uStopped := by
  rw [receiverOp, h]
  rfl

/-- R57: without `stop` only U_HALT and the reserved code have no row. -/
theorem state_of_receiverOp_none {s : State} (h : receiverOp s = none) : s.uart.state ∈ [UState.halt, .reserved] := by
  rw [receiverOp] at h
  cases hstop : s.sig.stop <;> cases hst : s.uart.state <;> simp [uartOp, hstop, hst] at h ⊢

/-- R62, R63, R57: the receiver halts with `stop`, else runs one of its moves, else has no row. -/
theorem uartPart_cases {s t : State} (h : uartPart s = .next t) :
    (s.sig.stop = true ∧ t = uartEnd { (sampleLine s).uart with state := .halt } .quiet (sampleLine s)) ∨
    (s.sig.stop = false ∧ ∃ u rx, UartMove (sampleLine s) u rx ∧
      t = (uartEnd u rx (sampleLine s)).setFlags (stickRx rx s.flags)) ∨
    (s.sig.stop = false ∧ s.uart.state ∈ [UState.halt, .reserved] ∧
      t = raiseFault (.unreachable .uart (usel (sampleLine s))) (sampleLine s)) := by
  cases hstop : s.sig.stop with
  | true =>
    rw [uartPart_of_op (receiverOp_of_stop hstop)] at h
    cases h
    exact .inl ⟨rfl, rfl⟩
  | false =>
    refine .inr ?_
    cases hop : receiverOp s with
    | some i =>
      rw [uartPart_of_op hop] at h
      rw [receiverOp, hstop] at hop
      exact .inl ⟨rfl, exec_uartOp hop h⟩
    | none =>
      rw [uartPart_of_no_op hop] at h
      exact .inr ⟨rfl, state_of_receiverOp_none hop, (Host.Outcome.next.inj h).symm⟩

/-! ## The collector -/

/-- A running collector's operations: the registers and the push request after. -/
inductive CollectorMove (s : State) : Collector → Option Push → Prop where
  | settleWait (hst : s.col.state = .settle) (hit : s.col.timer ≠ s.cfg.settle) :
      CollectorMove s { s.col with timer := s.col.timer + 1 } none
  | settleDrain (hst : s.col.state = .settle) : CollectorMove s { s.col with state := .idle, timer := 0 } none
  | wait (hst : s.col.state ∈ [CState.idle, .collect]) (hit : s.col.timer.toNat + 1 ≠ s.cfg.tmo.toNat) :
      CollectorMove s { s.col with timer := s.col.timer + 1 } none
  | emptyRead (hst : s.col.state = .idle) : CollectorMove s { s.col with timer := 0 } none
  | firstByte (hst : s.col.state = .idle) :
      CollectorMove s { frameWrite 0 s.sig.rx.byte s.col with len := 1, timer := 0, state := .collect } none
  | append (hst : s.col.state = .collect) (hlen : s.col.len ≠ 255) :
      CollectorMove s { frameWrite s.col.len.toNat s.sig.rx.byte s.col with len := s.col.len + 1, timer := 0 } none
  | silenceClose (hst : s.col.state = .collect) : CollectorMove s (colIdle s.col) (closeRequest (collected s.col) s)
  | fullClose (hst : s.col.state = .collect) :
      CollectorMove s (colIdle (frameWrite 255 s.sig.rx.byte s.col)) (closeRequest (memBytes s.col.buf 255 ++ [s.sig.rx.byte]) s)

/-- The operation that a running collector selects is one of the moves. -/
theorem exec_collectorOp {s t : State} {i : Instr}
    (hi : collectorOp false s.col.state s.sig.rx.strobe (cHit s) (s.col.len == 255) = some i) (h : exec i s = .next t) :
    ∃ c p, CollectorMove s c p ∧ t = colEnd c p s := by
  have move {c : Collector} {p : Option Push} (hm : CollectorMove s c p) (ht : .next (colEnd c p s) = (.next t : Result)) :
      ∃ c p, CollectorMove s c p ∧ t = colEnd c p s := ⟨c, p, hm, (Host.Outcome.next.inj ht).symm⟩
  cases hst : s.col.state with
  | settle =>
    simp only [collectorOp, hst, cHit_settle hst, Bool.false_eq_true, if_false, beq_iff_eq, Option.some.injEq] at hi
    split at hi <;> subst hi
    · exact move (.settleDrain hst) h
    · exact move (.settleWait hst ‹_›) h
  | idle =>
    simp only [collectorOp, hst, cHit_tmo (s := s) (by simp [hst]), Bool.false_eq_true, if_false, beq_iff_eq, Option.some.injEq] at hi
    split at hi
    · subst hi
      exact move (.firstByte hst) h
    · split at hi <;> subst hi
      · exact move (.emptyRead hst) h
      · exact move (.wait (by simp [hst]) ‹_›) h
  | collect =>
    simp only [collectorOp, hst, cHit_tmo (s := s) (by simp [hst]), Bool.false_eq_true, if_false, beq_iff_eq, Option.some.injEq] at hi
    split at hi
    · split at hi <;> subst hi
      · exact move (.fullClose hst) h
      · exact move (.append hst ‹_›) h
    · split at hi <;> subst hi
      · exact move (.silenceClose hst) h
      · exact move (.wait (by simp [hst]) ‹_›) h
  | halt => simp [collectorOp, hst] at hi

/-- The operation that the collector's conditions select in a cycle, if any. -/
def selectedCollectorOp (s : State) : Option Instr :=
  collectorOp s.sig.stop s.col.state s.sig.rx.strobe (cHit s) (s.col.len == 255)

theorem collectorPart_of_op {s : State} {i : Instr} (h : selectedCollectorOp s = some i) : collectorPart s = exec i s := by
  rw [selectedCollectorOp] at h
  rw [collectorPart_eq, h]

theorem collectorPart_of_no_op {s : State} (h : selectedCollectorOp s = none) :
    collectorPart s = .next (raiseFault (.unreachable .collector ((csel s).setWidth 8)) s) := by
  rw [selectedCollectorOp] at h
  rw [collectorPart_eq, h]

theorem selectedCollectorOp_of_stop {s : State} (h : s.sig.stop = true) : selectedCollectorOp s = some .cStopped := by
  rw [selectedCollectorOp, h]
  rfl

/-- R57: without `stop` only C_HALT has no row. -/
theorem state_of_selectedCollectorOp_none {s : State} (h : selectedCollectorOp s = none) : s.col.state = .halt := by
  rw [selectedCollectorOp] at h
  cases hstop : s.sig.stop <;> cases hst : s.col.state <;> simp [collectorOp, hstop, hst] at h ⊢

/-- R80, R82, R57: the collector halts with `stop`, else runs one of its moves, else has no row. -/
theorem collectorPart_cases {s t : State} (h : collectorPart s = .next t) :
    (s.sig.stop = true ∧ t = colEnd { s.col with state := .halt, len := 0, timer := 0 } none s) ∨
    (s.sig.stop = false ∧ ∃ c p, CollectorMove s c p ∧ t = colEnd c p s) ∨
    (s.sig.stop = false ∧ s.col.state = .halt ∧ t = raiseFault (.unreachable .collector ((csel s).setWidth 8)) s) := by
  cases hstop : s.sig.stop with
  | true =>
    rw [collectorPart_of_op (selectedCollectorOp_of_stop hstop)] at h
    cases h
    exact .inl ⟨rfl, rfl⟩
  | false =>
    refine .inr ?_
    cases hop : selectedCollectorOp s with
    | some i =>
      rw [collectorPart_of_op hop] at h
      rw [selectedCollectorOp, hstop] at hop
      exact .inl ⟨rfl, exec_collectorOp hop h⟩
    | none =>
      rw [collectorPart_of_no_op hop] at h
      exact .inr ⟨rfl, state_of_selectedCollectorOp_none hop, (Host.Outcome.next.inj h).symm⟩

/-! ## The commit -/

/-- R120: a commit without a push, with room for the push, or without. -/
theorem queueCommit_cases {s t : State} (h : queueCommit s = .next t) :
    (s.sig.push = none ∧ t = s.setQ (popQueue s.sig.pop s.q)) ∨
    (∃ p, s.sig.push = some p ∧ (popQueue s.sig.pop s.q).count.toNat < 2 ∧ t = s.setQ (pushQueue p (popQueue s.sig.pop s.q))) ∨
    (∃ p, s.sig.push = some p ∧ 2 ≤ (popQueue s.sig.pop s.q).count.toNat ∧
      t = raiseFault (.overrun (BitVec.ofNat 9 p.bytes.length) p.ts)
        { s with q := popQueue s.sig.pop s.q, flags := { s.flags with overrun := true } }) := by
  change exec .queueCommit s = .next t at h
  cases hp : s.sig.push with
  | none =>
    rw [exec_queueCommit_of_none hp] at h
    exact .inl ⟨rfl, (Host.Outcome.next.inj h).symm⟩
  | some p =>
    obtain hroom | hfull := Nat.lt_or_ge (popQueue s.sig.pop s.q).count.toNat 2
    · rw [exec_queueCommit_of_room hp hroom] at h
      exact .inr (.inl ⟨p, rfl, hroom, (Host.Outcome.next.inj h).symm⟩)
    · rw [exec_queueCommit_of_full hp hfull] at h
      exact .inr (.inr ⟨p, rfl, hfull, (Host.Outcome.next.inj h).symm⟩)

end Sys2Proof.Machine
end

section
/-! SUPPORT. Each part of a cycle keeps its part of the run invariant: the byte arrays in canonical form (20_memory.md R28), and the receiver's
and the collector's counters within their bounds (10_state.md R18, R19, R25). -/

namespace Sys2Proof.Machine

/-! ## The byte arrays -/

theorem wf_frameWrite {c : Collector} (h : c.buf.wf = true) (i : Nat) (b : Byte) : (frameWrite i b c).buf.wf = true :=
  Memory.wf_memWrite h (byteIndex_lt i) b

theorem wf_collectorMove {s : State} {c : Collector} {p : Option Push} (h : CollectorMove s c p) (hwf : s.col.buf.wf = true) :
    c.buf.wf = true := by
  cases h with
  | settleWait | settleDrain | wait | emptyRead | silenceClose => exact hwf
  | firstByte | append | fullClose => exact wf_frameWrite hwf _ _

theorem wf_collectorPart {s t : State} (h : collectorPart s = .next t) (hwf : s.col.buf.wf = true) : t.col.buf.wf = true := by
  obtain ⟨-, rfl⟩ | ⟨-, c, p, hm, rfl⟩ | ⟨-, -, rfl⟩ := collectorPart_cases h
  · exact hwf
  · exact wf_collectorMove hm hwf
  · exact hwf

/-- The queue's part of `FramesCanonical`. -/
def Queue.Canonical (q : Queue) : Prop := q.e0.bytes.wf = true ∧ q.e1.bytes.wf = true

theorem canonical_setEntry {q : Queue} (hq : q.Canonical) (k : BitVec 1) {e : QEntry} (he : e.bytes.wf = true) :
    (q.setEntry k e).Canonical := by
  obtain ⟨h0, h1⟩ := hq
  rw [Queue.setEntry]
  split
  · exact ⟨he, h1⟩
  · exact ⟨h0, he⟩

theorem canonical_pushQueue {q : Queue} (hq : q.Canonical) (p : Push) : (pushQueue p q).Canonical :=
  canonical_setEntry hq _ (Memory.wf_memWriteAll (wf_entry_bytes _ hq.1 hq.2) 0 p.bytes)

theorem canonical_popQueue {q : Queue} (hq : q.Canonical) (pop : Bool) : (popQueue pop q).Canonical := by
  rw [popQueue_eq]
  exact hq

theorem canonical_queueCommit {s t : State} (h : queueCommit s = .next t) (hq : s.q.Canonical) : t.q.Canonical := by
  obtain ⟨-, rfl⟩ | ⟨p, -, -, rfl⟩ | ⟨p, -, -, rfl⟩ := queueCommit_cases h
  · exact canonical_popQueue hq _
  · exact canonical_pushQueue (canonical_popQueue hq _) p
  · exact canonical_popQueue hq _

theorem framesCanonical_iff (s : State) : FramesCanonical s ↔ s.col.buf.wf = true ∧ s.q.Canonical := Iff.rfl

/-- R28: every array of a reset cycle is empty, and of any other step the collector's part and the commit write the arrays. -/
theorem framesCanonical_step {s t : State} (hs : FramesCanonical s) (h : step s = .next t) : FramesCanonical t := by
  cases hr : s.pins.rst with
  | true =>
    obtain rfl := eq_afterReset_of_step hr h
    exact ⟨rfl, rfl, rfl⟩
  | false =>
    obtain ⟨s1, s2, s3, s4, hp, rfl⟩ := runParts_of_step hr h
    obtain ⟨hcol, hq⟩ := (framesCanonical_iff s).1 hs
    have hcol' : s4.col.buf.wf = true := by
      rw [hp.col_kept]
      exact wf_collectorPart hp.collector (by rwa [hp.collector_sees_col])
    have hq' : s4.q.Canonical := canonical_queueCommit hp.commit (by rwa [hp.commit_sees_q])
    exact ⟨hcol', hq'⟩

/-! ## The receiver -/

/-- R17: a configuration is legal when none of the four conditions holds. -/
theorem cfgLegal_iff (c : Cfg) : cfgLegal c = true ↔
    4 ≤ c.baudDiv.toNat ∧ c.parity.toNat ≤ 4 ∧ c.stop.toNat ≤ 2 ∧ ¬ (c.tmoOvrEn = true ∧ c.tmoOvr = 0) := by
  simp only [cfgLegal, Bool.and_eq_true, decide_eq_true_eq, Bool.not_eq_true', Bool.and_eq_false_iff, beq_eq_false_iff_ne, ne_eq,
    not_and, and_assoc, show Config.baudDivMin = 4 from rfl]
  cases c.tmoOvrEn <;> simp

section
variable {s : State}

theorem uartInv_of_start (hst : s.uart.state = .start) :
    UartInv s ↔ 1 ≤ s.uart.cnt.toNat ∧ s.uart.cnt.toNat ≤ s.cfg.baudDiv.toNat / 2 := by
  simp only [UartInv, hst]

theorem uartInv_of_bit (hst : s.uart.state ∈ [UState.data, .parity, .stop]) :
    UartInv s ↔ 1 ≤ s.uart.cnt.toNat ∧ s.uart.cnt.toNat ≤ s.cfg.baudDiv.toNat := by
  simp only [List.mem_cons, List.not_mem_nil, or_false] at hst
  obtain hst | hst | hst := hst <;> simp only [UartInv, hst]

theorem uartInv_of_rest (hst : s.uart.state ∈ [UState.idle, .waitIdle]) :
    UartInv s ↔ s.uart.cnt.toNat ≤ s.cfg.baudDiv.toNat := by
  simp only [List.mem_cons, List.not_mem_nil, or_false] at hst
  obtain hst | hst := hst <;> simp only [UartInv, hst]

theorem uartInv_of_halt (hst : s.uart.state = .halt) :
    UartInv s ↔ s.uart.cnt.toNat ≤ s.cfg.baudDiv.toNat ∧ s.flags.fatal = true := by
  simp only [UartInv, hst]

/-- R25: in every state of the receiver `u_cnt` is within a bit. -/
theorem UartInv.cnt_le (h : UartInv s) : s.uart.cnt.toNat ≤ s.cfg.baudDiv.toNat := by
  unfold UartInv at h
  cases hst : s.uart.state <;> simp only [hst] at h <;> omega

end

/-- R66, R69, R73, R75: a count that has not reached its sample point stays within it. -/
theorem uartInv_count {s : State} (hst : s.uart.state ∈ [UState.start, .data, .parity, .stop]) (hit : uHit s = false) (hi : UartInv s) :
    UartInv (s.setUart { s.uart with cnt := s.uart.cnt + 1 }) := by
  have hbd := s.cfg.baudDiv.isLt
  rw [List.mem_cons] at hst
  obtain hst | hst := hst
  · rw [uHit_start hst, decide_eq_false_iff_not] at hit
    rw [uartInv_of_start hst] at hi
    exact (uartInv_of_start (by exact hst)).2 (cnt_succ hi.2 hit (by omega))
  · rw [uHit_bit hst, beq_eq_false_iff_ne, ne_eq, ← BitVec.toNat_inj] at hit
    rw [uartInv_of_bit hst] at hi
    exact (uartInv_of_bit (by exact hst)).2 (cnt_succ hi.2 hit hbd)

/-- R18, R25: every operation of a running receiver keeps the bounds; a new count begins at 1, and half a bit is at least one cycle. -/
theorem uartInv_move {s : State} {u : Uart} {rx : Rx} (hm : UartMove s u rx) (hl : cfgLegal s.cfg = true) (hi : UartInv s) :
    UartInv (s.setUart u) := by
  obtain ⟨hbd, -⟩ := (cfgLegal_iff _).1 hl
  have hone : (1 : BitVec 24).toNat = 1 := rfl
  cases hm with
  | wait => exact hi
  | startDetect => exact (uartInv_of_start rfl).2 ⟨hone.ge, hone.trans_le (by rw [setUart_cfg]; omega)⟩
  | count hst hit => exact uartInv_count hst hit hi
  | startConfirm | parSample => exact (uartInv_of_bit (by simp)).2 ⟨hone.ge, hone.trans_le (Nat.le_trans (by decide) hbd)⟩
  | toIdle => exact (uartInv_of_rest (by simp)).2 hi.cnt_le
  | dataSample hst => exact (uartInv_of_bit (by simp [hst])).2 ⟨hone.ge, hone.trans_le (Nat.le_trans (by decide) hbd)⟩
  | dataLast hst hst' =>
    exact (uartInv_of_bit (List.mem_cons_of_mem _ hst')).2 ⟨hone.ge, hone.trans_le (Nat.le_trans (by decide) hbd)⟩
  | stopSample hst hit =>
    refine (uartInv_of_rest ?_).2 hi.cnt_le
    simp only [setUart_uart, afterStop]
    split <;> simp

/-- The receiver's invariant reads its registers, the bit time and `sts_fatal`, which may only become 1. -/
theorem uartInv_of_eq {s t : State} (hu : t.uart = s.uart) (hc : t.cfg = s.cfg) (hf : s.flags.fatal = true → t.flags.fatal = true)
    (hi : UartInv s) : UartInv t := by
  cases hst : s.uart.state with
  | halt =>
    obtain ⟨hcnt, hfatal⟩ := (uartInv_of_halt hst).1 hi
    exact (uartInv_of_halt (by rw [hu, hst])).2 ⟨by rwa [hu, hc], hf hfatal⟩
  | reserved => simp only [UartInv, hst] at hi
  | idle | start | data | parity | stop | waitIdle => simpa only [UartInv, hu, hc, hst] using hi

/-- R46: U_HALT is entered in a cycle with `stop`, and without `stop` an invariant state has a row. -/
theorem uartInv_uartPart {s t : State} (h : uartPart s = .next t) (hl : cfgLegal s.cfg = true) (hf : s.sig.stop = s.flags.fatal)
    (hi : UartInv s) : UartInv t := by
  have hi' : UartInv (sampleLine s) := hi
  obtain ⟨hstop, rfl⟩ | ⟨-, u, rx, hm, rfl⟩ | ⟨hstop, hst, rfl⟩ := uartPart_cases h
  · exact (uartInv_of_halt rfl).2 ⟨hi.cnt_le, hf ▸ hstop⟩
  · exact uartInv_of_eq (s := (sampleLine s).setUart u) rfl rfl id (uartInv_move hm hl hi')
  · exact hi'

/-! ## The collector -/

section
variable {s : State}

theorem collectorInv_of_settle (hst : s.col.state = .settle) :
    CollectorInv s ↔ s.col.timer.toNat ≤ s.cfg.settle.toNat ∧ s.col.len = 0 := by
  simp only [CollectorInv, hst]

theorem collectorInv_of_idle (hst : s.col.state = .idle) :
    CollectorInv s ↔ s.col.timer.toNat < s.cfg.tmo.toNat ∧ s.col.len = 0 := by
  simp only [CollectorInv, hst]

theorem collectorInv_of_collect (hst : s.col.state = .collect) :
    CollectorInv s ↔ s.col.timer.toNat < s.cfg.tmo.toNat ∧ 1 ≤ s.col.len.toNat ∧ s.col.len.toNat ≤ 255 := by
  simp only [CollectorInv, hst]

theorem collectorInv_of_halt (hst : s.col.state = .halt) :
    CollectorInv s ↔ s.col.len = 0 ∧ s.flags.fatal = true := by
  simp only [CollectorInv, hst]

end

/-- The collector's invariant reads its registers, the configuration and `sts_fatal`, which may only become 1. -/
theorem collectorInv_of_eq {s t : State} (hc : t.col = s.col) (hg : t.cfg = s.cfg) (hf : s.flags.fatal = true → t.flags.fatal = true)
    (hi : CollectorInv s) : CollectorInv t := by
  cases hst : s.col.state with
  | halt =>
    obtain ⟨hlen, hfatal⟩ := (collectorInv_of_halt hst).1 hi
    exact (collectorInv_of_halt (by rw [hc, hst])).2 ⟨by rwa [hc], hf hfatal⟩
  | settle | idle | collect => simpa only [CollectorInv, hc, hg, hst] using hi

/-- R16, R17: the silence threshold of a legal configuration is not 0. -/
theorem tmo_pos {c : Cfg} (hl : cfgLegal c = true) (ht : TmoDerived c) : 0 < c.tmo.toNat := by
  obtain ⟨hbd, -, -, hovr⟩ := (cfgLegal_iff c).1 hl
  rw [ht]
  by_cases hen : c.tmoOvrEn = true
  · rw [silenceThreshold_of_override hen]
    exact Nat.pos_of_ne_zero fun h => hovr ⟨hen, BitVec.eq_of_toNat_eq h⟩
  · rw [silenceThreshold_derived_toNat (Bool.eq_false_of_not_eq_true hen)]
    simp only
    omega

/-- R83, R85, R88: a timer that has not reached its end stays below it. -/
theorem timer_succ {x : BitVec 32} {n : Nat} (h1 : x.toNat < n) (h2 : x.toNat + 1 ≠ n) (h3 : n ≤ 2 ^ 32) : (x + 1).toNat < n := by
  bv_omega

/-- R19, R25: every operation of a running collector keeps the bounds. -/
theorem collectorInv_move {s : State} {c : Collector} {p : Option Push} (hm : CollectorMove s c p) (hpos : 0 < s.cfg.tmo.toNat)
    (hi : CollectorInv s) : CollectorInv (s.setCol c) := by
  have htmo := s.cfg.tmo.isLt
  have hsettle := s.cfg.settle.isLt
  cases hm with
  | settleWait hst hit =>
    obtain ⟨ht, hlen⟩ := (collectorInv_of_settle hst).1 hi
    have hne : s.col.timer.toNat ≠ s.cfg.settle.toNat := fun h => hit (BitVec.eq_of_toNat_eq h)
    refine (collectorInv_of_settle (by exact hst)).2 ⟨?_, hlen⟩
    exact Nat.le_of_lt_succ (timer_succ (Nat.lt_succ_of_le ht) (fun h => hne (Nat.succ.inj h)) hsettle)
  | settleDrain hst => exact (collectorInv_of_idle rfl).2 ⟨hpos, ((collectorInv_of_settle hst).1 hi).2⟩
  | wait hst hit =>
    simp only [List.mem_cons, List.not_mem_nil, or_false] at hst
    obtain hst | hst := hst
    · obtain ⟨ht, hlen⟩ := (collectorInv_of_idle hst).1 hi
      exact (collectorInv_of_idle (by exact hst)).2 ⟨timer_succ ht hit htmo.le, hlen⟩
    · obtain ⟨ht, hlen⟩ := (collectorInv_of_collect hst).1 hi
      exact (collectorInv_of_collect (by exact hst)).2 ⟨timer_succ ht hit htmo.le, hlen⟩
  | emptyRead hst => exact (collectorInv_of_idle (by exact hst)).2 ⟨hpos, ((collectorInv_of_idle hst).1 hi).2⟩
  | firstByte => exact (collectorInv_of_collect rfl).2 ⟨hpos, Nat.le_refl 1, Nat.le_of_ble_eq_true rfl⟩
  | append hst hlen =>
    obtain ⟨-, -, hle⟩ := (collectorInv_of_collect hst).1 hi
    refine (collectorInv_of_collect (by exact hst)).2 ⟨hpos, ?_⟩
    simp only [setCol_col]
    constructor <;> bv_omega
  | silenceClose | fullClose => exact (collectorInv_of_idle rfl).2 ⟨hpos, rfl⟩

theorem collectorInv_collectorPart {s t : State} (h : collectorPart s = .next t) (hpos : 0 < s.cfg.tmo.toNat)
    (hf : s.sig.stop = s.flags.fatal) (hi : CollectorInv s) : CollectorInv t := by
  obtain ⟨hstop, rfl⟩ | ⟨-, c, p, hm, rfl⟩ | ⟨-, -, rfl⟩ := collectorPart_cases h
  · exact (collectorInv_of_halt rfl).2 ⟨rfl, hf ▸ hstop⟩
  · exact collectorInv_move hm hpos hi
  · exact hi

/-- R20: a frame that closes has 1..256 bytes. -/
theorem push_length_of_move {s : State} {c : Collector} {p : Push} (hm : CollectorMove s c (some p)) (hi : CollectorInv s) :
    1 ≤ p.bytes.length ∧ p.bytes.length ≤ 256 := by
  cases hm with
  | silenceClose hst =>
    obtain ⟨-, h1, h2⟩ := (collectorInv_of_collect hst).1 hi
    rw [collected, memBytes_length]
    omega
  | fullClose => simp

theorem push_length_of_collectorPart {s t : State} {p : Push} (h : collectorPart s = .next t) (hno : s.sig.push = none)
    (hp : t.sig.push = some p) (hi : CollectorInv s) : 1 ≤ p.bytes.length ∧ p.bytes.length ≤ 256 := by
  obtain ⟨-, rfl⟩ | ⟨-, c, p', hm, rfl⟩ | ⟨-, -, rfl⟩ := collectorPart_cases h
  · cases hp
  · simp only [colEnd_sig] at hp
    subst hp
    exact push_length_of_move hm hi
  · rw [raiseFault_sig, hno] at hp
    cases hp

end Sys2Proof.Machine
end

section
/-! SUPPORT. The length of a line (44_record_formatter.md R117). -/

namespace Sys2Proof.Machine

theorem length_timestampText (ts : BitVec 64) : (timestampText ts).length = 23 := by
  rcases hc : civilFromDays ((ts.toNat / 86400000 : Nat) : Int) with ⟨y, m, d⟩
  rw [timestampText_eq_isoText hc, length_isoText]

theorem length_hexFrameText (f : Frame) : (hexFrameText f).length = 3 * f.length - 1 := by
  rw [hexFrameText_eq_drop, List.length_drop, length_hexTail]

/-- R112: the four tokens. -/
theorem length_statusTokenText (st : Status) : (statusTokenText st).length =
    match st with
    | .ok => 2
    | .badCrc => 7
    | .shortFrame => 11
    | .exception => 9 := by
  cases st <;> rfl

theorem length_decU8Text_bounds (v : Byte) : 1 ≤ (decU8Text v).length ∧ (decU8Text v).length ≤ 3 := by
  rw [length_decU8Text]
  split
  · decide
  · split <;> decide

/-- R117: the fixed characters of a line are 48 with those of its time. -/
theorem length_lineText (st : Status) (slave : Byte) (ts : BitVec 64) (f : Frame) :
    (lineText st slave ts f).length = 48 + (statusTokenText st).length + (3 * f.length - 1) + (decU8Text slave).length := by
  have hdate : (ascii "DATE=".toList).length = 5 := rfl
  have herr : (ascii ";ERR=".toList).length = 5 := rfl
  have hframe : (ascii ";FRAME=".toList).length = 7 := rfl
  have hslave : (ascii ";SLAVE=".toList).length = 7 := rfl
  simp only [lineText_eq, lineFields, List.length_append, hdate, herr, hframe, hslave, length_timestampText, length_hexFrameText,
    List.length_singleton]
  omega

/-- R117: a line is never empty, and that of a frame of at most 256 bytes is within 832 characters, whatever the record. -/
theorem length_lineText_le (st : Status) (slave : Byte) (ts : BitVec 64) {f : Frame} (h : f.length ≤ 256) :
    1 ≤ (lineText st slave ts f).length ∧ (lineText st slave ts f).length ≤ 832 := by
  have hdec := length_decU8Text_bounds slave
  have htoken : (statusTokenText st).length ≤ 11 := by
    rw [length_statusTokenText]
    cases st <;> decide
  rw [length_lineText]
  omega

/-- R117: the length of VALIDATE's line by the record's status and slave. -/
theorem validate_line_length {f : Frame} (ts : BitVec 64) (h1 : 1 ≤ f.length) (h256 : f.length ≤ 256) :
    let r := validate f ts
    let n := (lineText r.status r.slave r.ts f).length
    (f.length < 5 → n = 59 + 3 * f.length) ∧ (5 ≤ f.length → 50 + 3 * f.length ≤ n) ∧ n ≤ 827 := by
  intro r n
  have hn : n = 48 + (statusTokenText r.status).length + (3 * f.length - 1) + (decU8Text r.slave).length := length_lineText _ _ _ _
  have hzero : (decU8Text 0).length = 1 := rfl
  have hdec := length_decU8Text_bounds r.slave
  rw [length_statusTokenText] at hn
  obtain hshort | hlong := Nat.lt_or_ge f.length 5
  · have hr : r = _ := validateWith_short ts hshort
    rw [hr] at hn
    simp only [hzero] at hn
    omega
  by_cases hcrc : frameReceivedCrc f = crc16 (payload f)
  · obtain hx | hx := Nat.lt_or_ge 0x80 (frameByte f 1).toNat
    · have hr : r.status = .exception := congrArg Record.status (validateWith_exception ts hlong hcrc hx)
      simp only [hr] at hn
      omega
    · have hr : r.status = .ok := congrArg Record.status (validateWith_ok ts hlong hcrc hx)
      simp only [hr] at hn
      omega
  · have hr : r = _ := validateWith_badCrc ts hlong hcrc
    rw [hr] at hn
    simp only [hzero] at hn
    omega

end Sys2Proof.Machine
end

section
/-! The record formatter: the statement of 44_record_formatter.md R117. -/

open Sys2Proof Sys2Proof.Machine

/-- Settles O43: the formula is the sum of a line's parts, and VALIDATE's status and slave bound the two that vary. -/
theorem lineLengthsAreBounded : Obligations.LineLengthsAreBounded :=
  ⟨fun st slave ts f _ => length_lineText st slave ts f, fun _ ts h1 h256 => validate_line_length ts h1 h256⟩

end

section
/-! SUPPORT. The queue's and the emitter's part of the run invariant (10_state.md R20, R21; 42_crc16.md R99, R100; 45_record_pipeline.md R120,
R127): the commit and the emitter's operations keep it. -/

namespace Sys2Proof.Machine

/-! ## The queue's counts -/

/-- With one frame queued the tail is the other entry. -/
theorem tailIndex_of_count_one {q : Queue} (h : q.count = 1) : tailIndex q = q.head + 1 := by
  rw [tailIndex, h]
  rfl

theorem tailIndex_of_count_zero {q : Queue} (h : q.count = 0) : tailIndex q = q.head := by
  rw [tailIndex, h]
  exact BitVec.add_zero _

theorem bitVec_one_add_one_add_one (k : BitVec 1) : k + 1 + 1 = k := by
  obtain rfl | rfl := BitVec.eq_zero_or_eq_one k <;> rfl

theorem count_eq_zero_or_one {c : BitVec 2} (h : c.toNat < 2) : c = 0 ∨ c = 1 := by
  have h' : c.toNat = 0 ∨ c.toNat = 1 := by omega
  exact h'.imp BitVec.eq_of_toNat_eq BitVec.eq_of_toNat_eq

/-- R120: a push behind one frame leaves that frame's entry alone. -/
theorem headEntry_pushQueue {q : Queue} (h : q.count = 1) (p : Push) : (pushQueue p q).headEntry = q.headEntry := by
  have hother := entry_pushQueue_other p q
  rw [tailIndex_of_count_one h, bitVec_one_add_one_add_one] at hother
  rw [Queue.headEntry, pushQueue_head, hother]
  rfl

/-- The occupied entries of a queue are frames of 1..256 bytes: `QueueInv` of the queue alone. -/
def Queue.Inv (q : Queue) : Prop :=
  q.count.toNat ≤ 2 ∧ (1 ≤ q.count.toNat → EntryInUse q.headEntry) ∧ (q.count.toNat = 2 → EntryInUse (q.entry (q.head + 1)))

theorem queueInv_iff (s : State) : QueueInv s ↔ s.q.Inv := Iff.rfl

/-- R20: the head frame of a queue in use has at most 256 bytes. -/
theorem headLen_le_of_inv {s : State} (hq : s.q.Inv) (hc : 1 ≤ s.q.count.toNat) : headLen s ≤ 256 := by
  obtain ⟨-, hhead, -⟩ := hq
  exact (hhead hc).2

/-- R20: a pop leaves the other entry, if any, at the head. -/
theorem inv_popQueue {q : Queue} (hq : q.Inv) {pop : Bool} (hpop : pop = true → 1 ≤ q.count.toNat) : (popQueue pop q).Inv := by
  cases pop with
  | false => exact hq
  | true =>
    obtain ⟨hle, -, hsnd⟩ := hq
    have hcount : (q.count - 1).toNat = q.count.toNat - 1 := by
      have := hpop rfl
      bv_omega
    refine ⟨?_, fun h => hsnd ?_, fun h => ?_⟩ <;> simp only [popQueue, if_true] at * <;> omega

/-- R20, R120: a push into a queue with room adds one frame after those in use. -/
theorem inv_pushQueue {q : Queue} (hq : q.Inv) (hroom : q.count.toNat < 2) {p : Push} (h1 : 1 ≤ p.bytes.length)
    (h256 : p.bytes.length ≤ 256) : (pushQueue p q).Inv := by
  have hentry : EntryInUse ((pushQueue p q).entry (tailIndex q)) := by
    rw [entry_pushQueue_tail, EntryInUse, pushEntry_len_toNat h256]
    exact ⟨h1, h256⟩
  obtain hc | hc := count_eq_zero_or_one hroom
  · rw [tailIndex_of_count_zero hc] at hentry
    refine ⟨?_, fun _ => ?_, fun h => ?_⟩
    · rw [pushQueue_count, hc]
      decide
    · rwa [Queue.headEntry, pushQueue_head]
    · rw [pushQueue_count, hc] at h
      exact absurd h (by decide)
  · rw [tailIndex_of_count_one hc] at hentry
    refine ⟨?_, fun _ => ?_, fun _ => ?_⟩
    · rw [pushQueue_count, hc]
      decide
    · rw [headEntry_pushQueue hc]
      obtain ⟨-, hhead, -⟩ := hq
      exact hhead (by rw [hc]; decide)
    · rwa [pushQueue_head]

theorem inv_queueCommit {s t : State} (h : queueCommit s = .next t) (hq : s.q.Inv) (hpop : s.sig.pop = true → 1 ≤ s.q.count.toNat)
    (hpush : ∀ p, s.sig.push = some p → 1 ≤ p.bytes.length ∧ p.bytes.length ≤ 256) : t.q.Inv := by
  have hq' := inv_popQueue hq hpop
  obtain ⟨-, rfl⟩ | ⟨p, hp, hroom, rfl⟩ | ⟨p, -, -, rfl⟩ := queueCommit_cases h
  · exact hq'
  · obtain ⟨h1, h256⟩ := hpush p hp
    exact inv_pushQueue hq' hroom h1 h256
  · exact hq'

/-- R120 (a): a commit without a pop leaves the head entry in use alone. -/
theorem headEntry_queueCommit {s t : State} (h : queueCommit s = .next t) (hc : 1 ≤ s.q.count.toNat) (hpop : s.sig.pop = false) :
    t.q.head = s.q.head ∧ t.q.headEntry = s.q.headEntry ∧ 1 ≤ t.q.count.toNat := by
  have hq : popQueue s.sig.pop s.q = s.q := by rw [hpop]; rfl
  obtain ⟨-, rfl⟩ | ⟨p, -, hroom, rfl⟩ | ⟨p, -, -, rfl⟩ := queueCommit_cases h
  · rw [hq]
    exact ⟨rfl, rfl, hc⟩
  · rw [hq] at hroom ⊢
    obtain h0 | h1 := count_eq_zero_or_one hroom
    · rw [h0] at hc
      exact absurd hc (by decide)
    · refine ⟨pushQueue_head p s.q, headEntry_pushQueue h1 p, ?_⟩
      rw [setQ_q, pushQueue_count, h1]
      decide
  · simp only [raiseFault_q, hq]
    exact ⟨trivial, trivial, hc⟩

/-! ## The emitter's operations -/

/-- R122. -/
theorem exec_eDequeueShort (s : State) : exec .eDequeueShort s = .next (s.setEm { s.em with state := .classify }) := rfl

/-- R123, R95. -/
theorem exec_eDequeueCrc (s : State) : exec .eDequeueCrc s =
    .next (s.setEm { s.em with crc := 0xFFFF, idx := 0, bit := 0, state := .crc }) := rfl

/-- R124. -/
theorem exec_eCrcStep (s : State) : exec .eCrcStep s =
    .next ((driveT (crcFeed s) s).setEm { s.em with crc := crcBit (crcFeed s), bit := s.em.bit + 1 }) := by
  change andThen (crcBitStep s) _ = _
  rw [crcBitStep_eq]
  rfl

/-- R125. -/
theorem exec_eCrcNextByte (s : State) : exec .eCrcNextByte s =
    .next ((driveT (crcFeed s) s).setEm { s.em with crc := crcBit (crcFeed s), bit := 0, idx := s.em.idx + 1 }) := by
  change andThen (crcBitStep s) _ = _
  rw [crcBitStep_eq]
  rfl

/-- R126. -/
theorem exec_eCrcDone (s : State) : exec .eCrcDone s =
    .next ((driveT (crcFeed s) s).setEm { s.em with crc := crcBit (crcFeed s), bit := 0, state := .classify }) := by
  change andThen (crcBitStep s) _ = _
  rw [crcBitStep_eq]
  rfl

/-- The emitter's operations: its registers and the record after. -/
inductive EmitterMove (s : State) : Emitter → Record → Prop where
  | wait (hst : s.em.state = .idle) (hq : s.q.count = 0) : EmitterMove s s.em s.record
  | dequeueShort (hst : s.em.state = .idle) (hq : s.q.count ≠ 0) (hn : headLen s < 5) :
      EmitterMove s { s.em with state := .classify } s.record
  | dequeueCrc (hst : s.em.state = .idle) (hq : s.q.count ≠ 0) (hn : 5 ≤ headLen s) :
      EmitterMove s { s.em with crc := 0xFFFF, idx := 0, bit := 0, state := .crc } s.record
  | crcStep (hst : s.em.state = .crc) (hbit : s.em.bit ≠ 7) :
      EmitterMove s { s.em with crc := crcBit (crcFeed s), bit := s.em.bit + 1 } s.record
  | crcNextByte (hst : s.em.state = .crc) (hbit : s.em.bit = 7) (hidx : s.em.idx.toNat + 3 ≠ headLen s) :
      EmitterMove s { s.em with crc := crcBit (crcFeed s), bit := 0, idx := s.em.idx + 1 } s.record
  | crcDone (hst : s.em.state = .crc) (hbit : s.em.bit = 7) (hidx : s.em.idx.toNat + 3 = headLen s) :
      EmitterMove s { s.em with crc := crcBit (crcFeed s), bit := 0, state := .classify } s.record
  | classify (hst : s.em.state = .classify) (hts : s.q.headEntry.ts.toNat ≤ 253402300799999) :
      EmitterMove s
        { s.em with
          state := .line, lidx := 0
          line := lineText (headRecord s).status (headRecord s).slave (headRecord s).ts (headFrame s) }
        (headRecord s)
  | lineChar (hst : s.em.state = .line) (hlast : s.em.lidx.toNat + 1 ≠ s.em.line.length) :
      EmitterMove s { s.em with lidx := s.em.lidx + 1 } s.record
  | lineLast (hst : s.em.state = .line) (hlast : s.em.lidx.toNat + 1 = s.em.line.length) :
      EmitterMove s { s.em with state := .idle } s.record

/-- The emitter's part of a cycle is one of the moves. -/
theorem emitterPart_move {s t : State} (h : emitterPart s = .next t) : EmitterMove s t.em t.record := by
  rw [emitterPart_eq] at h
  cases hst : s.em.state with
  | idle =>
    simp only [emitterOp, hst, bne_iff_ne, decide_eq_true_eq] at h
    split at h
    next hq =>
      split at h
      next hn => rw [exec_eDequeueShort] at h; cases h; exact .dequeueShort hst hq hn
      next hn => rw [exec_eDequeueCrc] at h; cases h; exact .dequeueCrc hst hq (Nat.le_of_not_lt hn)
    next hq => cases h; exact .wait hst (Decidable.not_not.1 hq)
  | crc =>
    simp only [emitterOp, hst, beq_iff_eq, crcLast] at h
    split at h
    next hbit =>
      split at h
      next hidx => rw [exec_eCrcDone] at h; cases h; exact .crcDone hst hbit hidx
      next hidx => rw [exec_eCrcNextByte] at h; cases h; exact .crcNextByte hst hbit hidx
    next hbit => rw [exec_eCrcStep] at h; cases h; exact .crcStep hst hbit
  | classify =>
    simp only [emitterOp, hst] at h
    obtain hgt | hle := Nat.lt_or_ge 253402300799999 s.q.headEntry.ts.toNat
    · rw [exec_eClassify_of_gt hgt] at h
      cases h
    · obtain ⟨fmt, hline, hexec⟩ := exec_eClassify_of_le hle
      rw [hexec] at h
      cases h
      rw [setEm_em, hline]
      exact .classify hst hle
  | line =>
    simp only [emitterOp, hst, lineLast, beq_iff_eq] at h
    split at h
    next hlast => cases h; exact .lineLast hst hlast
    next hlast => cases h; exact .lineChar hst hlast

/-! ## The emitter's invariant -/

/-- The emitter's invariant reads its registers, the record, the head entry, and that there is one. -/
theorem emitterInv_of_eq {s t : State} (he : t.em = s.em) (hr : t.record = s.record) (hh : t.q.headEntry = s.q.headEntry)
    (hc : 1 ≤ s.q.count.toNat → 1 ≤ t.q.count.toNat) (hi : EmitterInv s) : EmitterInv t := by
  cases hst : s.em.state <;>
    simp only [EmitterInv, crcSoFar, headFrame, headLen, headRead, he, hr, hh, hst] at hi ⊢ <;>
    exact ⟨hc hi.1, hi.2⟩

theorem emitterInv_of_idle {s : State} (h : s.em.state = .idle) : EmitterInv s := by
  simp only [EmitterInv, h]

theorem emitterInv_of_crc {s : State} (h : s.em.state = .crc) : EmitterInv s ↔
    1 ≤ s.q.count.toNat ∧ 5 ≤ headLen s ∧ s.em.idx.toNat + 3 ≤ headLen s ∧ s.em.crc = crcSoFar s := by
  simp only [EmitterInv, h, Config.minFrame]

theorem emitterInv_of_classify {s : State} (h : s.em.state = .classify) : EmitterInv s ↔
    1 ≤ s.q.count.toNat ∧ (5 ≤ headLen s → s.em.crc = crc16 (payload (headFrame s))) := by
  simp only [EmitterInv, h, Config.minFrame]

theorem emitterInv_of_line {s : State} (h : s.em.state = .line) : EmitterInv s ↔
    1 ≤ s.q.count.toNat ∧ s.em.lidx.toNat < s.em.line.length
      ∧ s.record = validate (headFrame s) s.q.headEntry.ts
      ∧ s.em.line = lineText s.record.status s.record.slave s.record.ts (headFrame s)
      ∧ s.record.ts.toNat ≤ 253402300799999 := by
  simp only [EmitterInv, h, Config.tsMax]

/-- R117: `e_lidx` has room for every index of the line. -/
theorem length_em_line_le {s : State} (hq : s.q.Inv) (hi : EmitterInv s) (hst : s.em.state = .line) : s.em.line.length ≤ 832 := by
  obtain ⟨hc, -, -, hline, -⟩ := (emitterInv_of_line hst).1 hi
  have hlen := headLen_le_of_inv hq hc
  rw [hline]
  exact (length_lineText_le _ _ _ ((headFrame_length s).trans_le hlen)).2

/-! The CRC of what has been processed, one bit step on. -/

/-- R99: the bit step is one more of the present byte's. -/
theorem crcBit_crcFeed {s : State} (h : s.em.crc = crcSoFar s) : crcBit (crcFeed s) =
    crcBits (s.em.bit.toNat + 1) (crc16 ((headFrame s).take s.em.idx.toNat) ^^^ (headRead s s.em.idx.toNat).setWidth 16) := by
  rw [crcBits_succ, crcFeed, h, crcSoFar]
  by_cases hb : s.em.bit = 0
  · simp only [hb, if_true]
    rfl
  · simp only [hb, if_false]

/-- R100: the eighth bit step ends the byte. -/
theorem crcBit_crcFeed_last {s : State} (h : s.em.crc = crcSoFar s) (hbit : s.em.bit = 7) (hidx : s.em.idx.toNat < headLen s) :
    crcBit (crcFeed s) = crc16 ((headFrame s).take (s.em.idx.toNat + 1)) := by
  rw [crcBit_crcFeed h, hbit, crc16_take_succ hidx]
  rfl

/-- R21, R25: every operation of the emitter keeps its invariant. -/
theorem emitterInv_move {s : State} {e : Emitter} {r : Record} (hm : EmitterMove s e r) (hq : s.q.Inv) (hi : EmitterInv s) :
    EmitterInv ((s.setEm e).setRecord r) := by
  cases hm with
  | wait hst => exact emitterInv_of_idle hst
  | dequeueShort hst hc hn =>
    refine (emitterInv_of_classify rfl).2 ⟨?_, fun h => absurd hn (Nat.not_lt_of_le h)⟩
    exact Nat.pos_of_ne_zero fun h => hc (BitVec.eq_of_toNat_eq h)
  | dequeueCrc hst hc hn =>
    refine (emitterInv_of_crc rfl).2 ⟨?_, hn, Nat.le_trans (show 3 ≤ 5 by decide) hn, rfl⟩
    exact Nat.pos_of_ne_zero fun h => hc (BitVec.eq_of_toNat_eq h)
  | crcStep hst hbit =>
    obtain ⟨hc, hn, hidx, hcrc⟩ := (emitterInv_of_crc hst).1 hi
    refine (emitterInv_of_crc (by exact hst)).2 ⟨hc, hn, hidx, ?_⟩
    have hbit' : s.em.bit + 1 ≠ 0 := by bv_omega
    have hnat : (s.em.bit + 1).toNat = s.em.bit.toNat + 1 := by bv_omega
    refine (crcBit_crcFeed hcrc).trans ?_
    simp only [crcSoFar, setRecord_em, setEm_em, hbit', if_false, hnat]
    rfl
  | crcNextByte hst hbit hne =>
    obtain ⟨hc, hn, hidx, hcrc⟩ := (emitterInv_of_crc hst).1 hi
    have hlen := headLen_le_of_inv hq hc
    have hnat : (s.em.idx + 1).toNat = s.em.idx.toNat + 1 := by bv_omega
    refine (emitterInv_of_crc (by exact hst)).2 ⟨hc, hn, ?_, ?_⟩
    · change (s.em.idx + 1).toNat + 3 ≤ headLen s
      omega
    · refine (crcBit_crcFeed_last hcrc hbit (by omega)).trans ?_
      rw [← hnat]
      rfl
  | crcDone hst hbit heq =>
    obtain ⟨hc, hn, hidx, hcrc⟩ := (emitterInv_of_crc hst).1 hi
    refine (emitterInv_of_classify rfl).2 ⟨hc, fun _ => (crcBit_crcFeed_last hcrc hbit (by omega)).trans ?_⟩
    have hnat : s.em.idx.toNat + 1 = (headFrame s).length - 2 := by
      rw [headFrame_length]
      omega
    rw [hnat]
    rfl
  | classify hst hts =>
    obtain ⟨hc, hcrc⟩ := (emitterInv_of_classify hst).1 hi
    have hlen := headLen_le_of_inv hq hc
    have hrec : headRecord s = validate (headFrame s) s.q.headEntry.ts :=
      validateWith_eq_validate _ fun hn => hcrc (hn.trans_eq (headFrame_length s))
    refine (emitterInv_of_line rfl).2 ⟨hc, ?_, hrec, rfl, ?_⟩
    · exact (length_lineText_le _ _ _ ((headFrame_length s).trans_le hlen)).1
    · rw [setRecord_record, headRecord_ts]
      exact hts
  | lineChar hst hlast =>
    obtain ⟨hc, hidx, hrec, hline, hts⟩ := (emitterInv_of_line hst).1 hi
    have hmax := length_em_line_le hq hi hst
    refine (emitterInv_of_line (by exact hst)).2 ⟨hc, ?_, hrec, hline, hts⟩
    change (s.em.lidx + 1).toNat < s.em.line.length
    bv_omega
  | lineLast => exact emitterInv_of_idle rfl

theorem emitterInv_emitterPart {s t : State} (h : emitterPart s = .next t) (hq : s.q.Inv) (hi : EmitterInv s) : EmitterInv t := by
  have hinv := emitterInv_move (emitterPart_move h) hq hi
  obtain ⟨_, _, _, _, _, rfl⟩ := emitterPart_effect h
  exact emitterInv_of_eq rfl rfl rfl id hinv

/-- R119: the emitter goes idle in the cycle of its pop. -/
theorem idle_of_pop {s : State} {e : Emitter} {r : Record} (hm : EmitterMove s e r) (hpop : popRequest s = true) : e.state = .idle := by
  simp only [popRequest, lineLast, Bool.and_eq_true, beq_iff_eq] at hpop
  obtain ⟨hline, hlast⟩ := hpop
  cases hm with
  | lineLast => rfl
  | lineChar _ hne => exact absurd hlast hne
  | wait hst | dequeueShort hst | dequeueCrc hst | crcStep hst | crcNextByte hst | crcDone hst | classify hst =>
    cases hline.symm.trans hst

/-- R120 (a): while the emitter works on a frame the commit leaves it that frame. -/
theorem emitterInv_queueCommit {s t : State} (h : queueCommit s = .next t) (hpop : s.sig.pop = true → s.em.state = .idle)
    (hi : EmitterInv s) : EmitterInv t := by
  have hem : t.em = s.em ∧ t.record = s.record := by
    obtain ⟨q, rfl⟩ | ⟨n, ts, rfl⟩ := queueCommit_effect h <;> exact ⟨rfl, rfl⟩
  by_cases hst : s.em.state = .idle
  · exact emitterInv_of_idle (by rw [hem.1, hst])
  · have hc : 1 ≤ s.q.count.toNat := by
      cases hst' : s.em.state with
      | idle => exact absurd hst' hst
      | crc => exact ((emitterInv_of_crc hst').1 hi).1
      | classify => exact ((emitterInv_of_classify hst').1 hi).1
      | line => exact ((emitterInv_of_line hst').1 hi).1
    obtain ⟨-, hhead, hc'⟩ := headEntry_queueCommit h hc (Bool.eq_false_of_not_eq_true fun hp => hst (hpop hp))
    exact emitterInv_of_eq hem.1 hem.2 hhead (fun _ => hc') hi

end Sys2Proof.Machine
end

section
/-! SUPPORT. The run invariant over a whole step (10_state.md): the base case of a reset cycle, and each part of a running cycle in its place. -/

namespace Sys2Proof.Machine

/-- R146: what a reset cycle leaves meets the invariant, whatever it latches. -/
theorem runInv_afterReset (p : CfgPins) (pins : Inputs) (script : List Inputs) (faults : List Fault) :
    RunInv (.afterReset p pins script faults) where
  frames := ⟨rfl, rfl, rfl⟩
  tmo := rfl
  uart := (uartInv_of_rest (List.mem_cons_self ..)).2 (Nat.zero_le _)
  col := (collectorInv_of_settle rfl).2 ⟨Nat.zero_le _, rfl⟩
  queue := ⟨Nat.zero_le 2, fun h => absurd h (Nat.not_lt_zero 0), fun h => absurd h (Nat.zero_ne_add_one 1)⟩
  em := emitterInv_of_idle rfl
  resetSeen := rfl

/-- R134: FATAL_ENTRY sets `stop` and `sts_fatal` alike. -/
theorem fatalEntry_stop_eq_fatal (s : State) : (fatalEntry s).sig.stop = (fatalEntry s).flags.fatal :=
  (fatalEntry_stop s).trans (fatalEntry_fatal s).symm

theorem fatalEntry_fatal_of_fatal {s : State} (h : s.flags.fatal = true) : (fatalEntry s).flags.fatal = true := by
  rw [fatalEntry_fatal, h, Bool.true_or]

/-- R119: a pop asks for the frame that E_LINE has. -/
theorem count_pos_of_popRequest {s : State} (hpop : popRequest s = true) (hi : EmitterInv s) : 1 ≤ s.q.count.toNat := by
  simp only [popRequest, Bool.and_eq_true, beq_iff_eq] at hpop
  exact ((emitterInv_of_line hpop.1).1 hi).1

namespace RunParts

variable {s s1 s2 s3 s4 : State} (hp : RunParts s s1 s2 s3 s4)
include hp

theorem uartInv (hl : cfgLegal s.cfg = true) (hi : UartInv s) : UartInv s4 := by
  have h0 : UartInv (fatalEntry (beginCycle s)) := uartInv_of_eq (s := s) rfl rfl fatalEntry_fatal_of_fatal hi
  have h1 : UartInv s1 := uartInv_uartPart hp.receiver hl (fatalEntry_stop_eq_fatal _) h0
  exact uartInv_of_eq hp.uart_kept (hp.cfg_kept.trans hp.collector_sees_cfg.symm) (fun h => by rwa [hp.fatal_kept]) h1

theorem collector_sees_inv (hi : CollectorInv s) : CollectorInv (popPart s1) :=
  collectorInv_of_eq hp.collector_sees_col hp.collector_sees_cfg
    (fun h => hp.collector_sees_fatal.trans (fatalEntry_fatal_of_fatal h)) hi

theorem collectorInv (hpos : 0 < s.cfg.tmo.toNat) (hi : CollectorInv s) : CollectorInv s4 := by
  have hcfg := collectorPart_cfg hp.collector
  have hstop : (popPart s1).sig.stop = (popPart s1).flags.fatal := by
    rw [hp.collector_sees_stop, hp.collector_sees_fatal]
    exact fatalEntry_stop_eq_fatal _
  have h2 : CollectorInv s2 :=
    collectorInv_collectorPart hp.collector (by rwa [hp.collector_sees_cfg]) hstop (hp.collector_sees_inv hi)
  refine collectorInv_of_eq hp.col_kept ?_ (fun h => ?_) h2
  · rw [hp.cfg_kept, hcfg, hp.collector_sees_cfg]
  · rwa [hp.fatal_kept, ← hp.collector_keeps_flags]

theorem queueInv (hc : CollectorInv s) (he : EmitterInv s) (hi : s.q.Inv) : s4.q.Inv := by
  refine inv_queueCommit hp.commit (by rwa [hp.commit_sees_q]) (fun h => ?_) (fun p h => ?_)
  · rw [hp.commit_sees_pop] at h
    rw [hp.commit_sees_q]
    exact count_pos_of_popRequest h he
  · rw [hp.commit_sees_push] at h
    exact push_length_of_collectorPart hp.collector hp.collector_sees_no_push h (hp.collector_sees_inv hc)

theorem emitterInv (hq : s.q.Inv) (hi : EmitterInv s) : EmitterInv s4 := by
  have h2 : EmitterInv s2 :=
    emitterInv_of_eq hp.emitter_sees_em hp.emitter_sees_record (by rw [hp.emitter_sees_q]) (fun h => by rwa [hp.emitter_sees_q]) hi
  have h3 : EmitterInv s3 := emitterInv_emitterPart hp.emitter (by rwa [hp.emitter_sees_q]) h2
  refine emitterInv_queueCommit hp.commit (fun h => idle_of_pop (emitterPart_move hp.emitter) ?_) h3
  rw [← hp.commit_sees_pop.symm.trans h, popRequest, popRequest, hp.emitter_sees_em]

end RunParts

/-- The run invariant is kept: a reset cycle establishes it, and each part of a running cycle keeps its part. -/
theorem runInv_step {s t : State} (hs : RunInv s) (h : step s = .next t) : RunInv t := by
  cases hr : s.pins.rst with
  | true =>
    obtain rfl := eq_afterReset_of_step hr h
    exact runInv_afterReset _ _ _ _
  | false =>
    have hl := cfgLegal_of_step hr h
    have hframes := framesCanonical_step hs.frames h
    obtain ⟨s1, s2, s3, s4, hp, rfl⟩ := runParts_of_step hr h
    exact
      { frames := hframes
        tmo := (congrArg TmoDerived hp.cfg_kept).mpr hs.tmo
        uart := hp.uartInv hl hs.uart
        col := hp.collectorInv (tmo_pos hl hs.tmo) hs.col
        queue := (queueInv_iff _).2 (hp.queueInv hs.col hs.em ((queueInv_iff s).1 hs.queue))
        em := hp.emitterInv hs.queue hs.em
        resetSeen := hp.resetSeen_kept.trans hs.resetSeen }

end Sys2Proof.Machine
end

section
/-! The invariants: the statements of 10_state.md, 20_memory.md R28 and 70_reset_and_hazards.md. -/

open Sys2Proof Sys2Proof.Machine

/-- Settles O55: of a running step only the collector and the commit write an array, by stores at indices of 8 bits. -/
theorem stepKeepsFramesCanonical : Obligations.StepKeepsFramesCanonical := fun _ _ hs h => framesCanonical_step hs h

/-- Settles O56: each part of a cycle keeps its part of the invariant. -/
theorem stepKeepsTheRunInvariant : Obligations.StepKeepsTheRunInvariant := fun _ _ hs h => runInv_step hs h

/-- Settles O57: every register of the reset table meets its bound. -/
theorem resetMeetsTheRunInvariant : Obligations.ResetMeetsTheRunInvariant := by
  refine ⟨runInv_afterReset _ _ _ _, fun s t hr h => ?_⟩
  obtain rfl := eq_afterReset_of_step hr h
  exact runInv_afterReset _ _ _ _

end

section
/-! SUPPORT. What a running step does to the flags, the fault record, the record registers and the outputs (10_state.md R22, R23; 45_record_pipeline.md
R118; 60_exceptions.md R134 to R137). -/

namespace Sys2Proof.Machine

/-! ## The faults of each part -/

theorem uartPart_faults {s t : State} (h : uartPart s = .next t) :
    t.faults = s.faults ∨
    (s.sig.stop = false ∧ s.uart.state ∈ [UState.halt, .reserved] ∧ ∃ w, t.faults = s.faults ++ [.unreachable .uart w]) := by
  obtain ⟨-, rfl⟩ | ⟨-, u, rx, -, rfl⟩ | ⟨hstop, hst, rfl⟩ := uartPart_cases h
  · exact .inl rfl
  · exact .inl rfl
  · exact .inr ⟨hstop, hst, _, rfl⟩

theorem collectorPart_faults {s t : State} (h : collectorPart s = .next t) :
    t.faults = s.faults ∨
    (s.sig.stop = false ∧ s.col.state = .halt ∧ ∃ w, t.faults = s.faults ++ [.unreachable .collector w]) := by
  obtain ⟨-, rfl⟩ | ⟨-, c, p, -, rfl⟩ | ⟨hstop, hst, rfl⟩ := collectorPart_cases h
  · exact .inl rfl
  · exact .inl rfl
  · exact .inr ⟨hstop, hst, _, rfl⟩

/-- R136: a commit records overruns alone, and none without a push. -/
theorem queueCommit_faults {s t : State} (h : queueCommit s = .next t) :
    ∃ fs, t.faults = s.faults ++ fs ∧ (∀ r ∈ fs, ∃ n ts, r = .overrun n ts) := by
  obtain ⟨q, rfl⟩ | ⟨n, ts, rfl⟩ := queueCommit_effect h
  · exact ⟨[], (List.append_nil _).symm, List.forall_mem_nil _⟩
  · exact ⟨[.overrun n ts], rfl, List.forall_mem_singleton.2 ⟨n, ts, rfl⟩⟩

/-- R136: `sts_overrun` sticks, and a commit without a push leaves it. -/
theorem queueCommit_overrun {s t : State} (h : queueCommit s = .next t) :
    (s.flags.overrun = true → t.flags.overrun = true) ∧ (s.sig.push = none → t.flags.overrun = s.flags.overrun) := by
  obtain ⟨-, rfl⟩ | ⟨p, -, -, rfl⟩ | ⟨p, hp, -, rfl⟩ := queueCommit_cases h
  · exact ⟨id, fun _ => rfl⟩
  · exact ⟨id, fun _ => rfl⟩
  · refine ⟨fun _ => rfl, fun hno => ?_⟩
    rw [hp] at hno
    cases hno

/-! ## The outputs and the record -/

theorem emitterPart_out {s t : State} (h : emitterPart s = .next t) :
    t.sig.out = s.sig.out ∨ (s.em.state = .line ∧ t.sig.out = (driveLine s).sig.out) := by
  rw [emitterPart_eq] at h
  cases hst : s.em.state with
  | idle =>
    refine .inl ?_
    simp only [emitterOp, hst] at h
    split at h
    · split at h <;> cases h <;> rfl
    · cases h
      rfl
  | crc =>
    refine .inl ?_
    simp only [emitterOp, hst] at h
    split at h
    · split at h
      · rw [exec_eCrcDone] at h
        cases h
        rfl
      · rw [exec_eCrcNextByte] at h
        cases h
        rfl
    · rw [exec_eCrcStep] at h
      cases h
      rfl
  | classify =>
    refine .inl ?_
    simp only [emitterOp, hst] at h
    obtain hgt | hle := Nat.lt_or_ge 253402300799999 s.q.headEntry.ts.toNat
    · rw [exec_eClassify_of_gt hgt] at h
      cases h
    · obtain ⟨fmt, -, hexec⟩ := exec_eClassify_of_le hle
      rw [hexec] at h
      cases h
      rfl
  | line =>
    refine .inr ⟨rfl, ?_⟩
    simp only [emitterOp, hst] at h
    split at h <;> cases h <;> rfl

/-- R118: an E_LINE cycle's first part has driven what E_LINE_CHAR and E_LINE_LAST drive. -/
theorem outputs_of_line {s : State} (hr : s.pins.rst = false) (hst : s.em.state = .line) :
    { outputs s with
      lineValid := true, lineChar := lineChar s.em, lineLast := lineLast s.em, recValid := s.em.lidx == 0 } = outputs s := by
  simp [outputs, hr, hst]

/-- R22: every operation but E_CLASSIFY leaves the record registers. -/
theorem emitterMove_record {s : State} {e : Emitter} {r : Record} (hm : EmitterMove s e r) (hst : s.em.state ≠ .classify) :
    r = s.record := by
  cases hm with
  | classify hc => exact absurd hc hst
  | _ => rfl

namespace RunParts

variable {s s1 s2 s3 s4 : State} (hp : RunParts s s1 s2 s3 s4)
include hp

/-! ## The fault record -/

theorem faults_of_commit : ∃ fs, s4.faults = s2.faults ++ fs ∧ (∀ r ∈ fs, ∃ n ts, r = .overrun n ts) := by
  rw [← hp.commit_sees_faults]
  exact queueCommit_faults hp.commit

theorem faults_of_collector : ∃ fs, s2.faults = s1.faults ++ fs := by
  obtain h | ⟨-, -, w, h⟩ := collectorPart_faults hp.collector
  · exact ⟨[], by rw [h, List.append_nil]; rfl⟩
  · exact ⟨_, h⟩

theorem faults_of_receiver : ∃ fs, s1.faults = s.faults ++ fs := by
  obtain h | ⟨-, -, w, h⟩ := uartPart_faults hp.receiver
  · exact ⟨[], by rw [h, List.append_nil]; rfl⟩
  · exact ⟨_, h⟩

/-- R57: a receiver in a state with a row raises no fault. -/
theorem receiver_faults_of_row (h : s.uart.state ∈ [UState.halt, .reserved] → s.flags.fatal = true) : s1.faults = s.faults := by
  obtain hf | ⟨hstop, hst, -⟩ := uartPart_faults hp.receiver
  · exact hf
  · rw [fatalEntry_stop_eq_fatal, fatalEntry_fatal_of_fatal (s := beginCycle s) (h hst)] at hstop
    cases hstop

/-- R57: a collector in a state with a row raises no fault. -/
theorem collector_faults_of_row (h : s.col.state = .halt → s.flags.fatal = true) : s2.faults = s1.faults := by
  obtain hf | ⟨hstop, hst, -⟩ := collectorPart_faults hp.collector
  · exact hf
  · rw [hp.collector_sees_col] at hst
    rw [hp.collector_sees_stop, fatalEntry_stop_eq_fatal, fatalEntry_fatal_of_fatal (s := beginCycle s) (h hst)] at hstop
    cases hstop

/-! ## The flags -/

/-- R76: the receiver sets the two error flags with its signals. -/
theorem flags_of_receiver : s1.flags = stickRx s1.sig.rx (fatalEntry (beginCycle s)).flags := by
  obtain ⟨_, _, _, _, _, _, _, -, rfl⟩ := uartPart_effect rfl hp.receiver
  rfl

/-- R134: `sts_fatal` takes `src_err` and nothing else. -/
theorem fatal_eq : s4.flags.fatal = (s.flags.fatal || s.pins.srcErr) := by
  rw [hp.fatal_kept, hp.flags_of_receiver]
  exact fatalEntry_fatal (beginCycle s)

theorem perr_eq : s4.flags.perr = (s.flags.perr || s1.sig.rx.perr) := by
  rw [hp.perr_kept, hp.flags_of_receiver]
  rfl

theorem ferr_eq : s4.flags.ferr = (s.flags.ferr || s1.sig.rx.ferr) := by
  rw [hp.ferr_kept, hp.flags_of_receiver]
  rfl

/-- R136: `sts_overrun` sticks, and a cycle without a push leaves it. -/
theorem overrun_of : (s.flags.overrun = true → s4.flags.overrun = true) ∧ (s2.sig.push = none → s4.flags.overrun = s.flags.overrun) := by
  have h := queueCommit_overrun hp.commit
  rwa [hp.commit_sees_push, hp.commit_sees_flags, hp.flags_of_receiver] at h

/-! ## The outputs and the record -/

/-- R118: the line port's outputs of an E_LINE cycle are those that the cycle's first part has driven. -/
theorem out_eq (hr : s.pins.rst = false) : s4.sig.out = outputs s := by
  rw [hp.out_kept]
  obtain h | ⟨hst, h⟩ := emitterPart_out hp.emitter
  · rw [h, hp.emitter_sees_out]
  · rw [hp.emitter_sees_em] at hst
    rw [h, driveLine, setSig_sig, hp.emitter_sees_out, hp.emitter_sees_em]
    exact outputs_of_line hr hst

/-- R22: only E_CLASSIFY writes the record registers. -/
theorem record_eq (hst : s.em.state ≠ .classify) : s4.record = s.record := by
  rw [hp.record_kept, ← hp.emitter_sees_record]
  exact emitterMove_record (emitterPart_move hp.emitter) (by rwa [hp.emitter_sees_em])

end RunParts

end Sys2Proof.Machine
end

section
/-! SUPPORT. Progress (10_state.md R17; 44_record_formatter.md R115; 60_exceptions.md R137; 70_reset_and_hazards.md R148): what a step and an
operation can answer beside a next state. -/

namespace Sys2Proof.Machine

/-- R115: the emitter's part goes on, or refuses a record's time in E_CLASS. -/
theorem emitterPart_next_or_refused (s : State) : (∃ t, emitterPart s = .next t) ∨
    (s.em.state = .classify ∧ 253402300799999 < s.q.headEntry.ts.toNat
      ∧ emitterPart s = .refused (.timestampOutOfRange s.q.headEntry.ts)) := by
  rw [emitterPart_eq]
  cases hst : s.em.state with
  | idle =>
    refine .inl ?_
    simp only [emitterOp]
    split
    · split <;> exact ⟨_, rfl⟩
    · exact ⟨_, rfl⟩
  | crc =>
    refine .inl ?_
    simp only [emitterOp]
    split
    · split
      · exact ⟨_, exec_eCrcDone s⟩
      · exact ⟨_, exec_eCrcNextByte s⟩
    · exact ⟨_, exec_eCrcStep s⟩
  | classify =>
    obtain hgt | hle := Nat.lt_or_ge 253402300799999 s.q.headEntry.ts.toNat
    · exact .inr ⟨rfl, hgt, exec_eClassify_of_gt hgt⟩
    · obtain ⟨fmt, -, hexec⟩ := exec_eClassify_of_le hle
      exact .inl ⟨_, hexec⟩
  | line =>
    refine .inl ?_
    simp only [emitterOp]
    split <;> exact ⟨_, rfl⟩

/-- R10: a cycle with `rst` = 0 by its parts. -/
theorem cycle_eq (s : State) : cycle s =
    andThen (uartPart (fatalEntry (beginCycle s))) fun s1 =>
    andThen (collectorPart (popPart s1)) fun s2 =>
    andThen (emitterPart s2) queueCommit := rfl

theorem cycle_next_or_refused (s : State) : (∃ t, cycle s = .next t) ∨
    (s.em.state = .classify ∧ 253402300799999 < s.q.headEntry.ts.toNat
      ∧ cycle s = .refused (.timestampOutOfRange s.q.headEntry.ts)) := by
  obtain ⟨s1, hu⟩ := uartPart_next (fatalEntry (beginCycle s))
  obtain ⟨s2, hc⟩ := collectorPart_next (popPart s1)
  have hsees : s2.em = s.em ∧ s2.q = s.q := by
    obtain ⟨_, _, _, _, _, _, _, -, h1⟩ := uartPart_effect rfl hu
    obtain ⟨_, _, h2⟩ | ⟨_, h2⟩ := collectorPart_effect hc <;> subst h1 h2 <;> exact ⟨rfl, rfl⟩
  rw [cycle_eq, hu, andThen_next, hc, andThen_next]
  obtain ⟨s3, he⟩ | ⟨hst, hgt, he⟩ := emitterPart_next_or_refused s2
  · obtain ⟨s4, hq⟩ := queueCommit_next s3
    exact .inl ⟨s4, by rw [he, andThen_next, hq]⟩
  · rw [hsees.1] at hst
    rw [hsees.2] at hgt he
    exact .inr ⟨hst, hgt, by rw [he, andThen_refused]⟩

/-- R17, R148: a step with `rst` = 0 by the two checks before its cycle. -/
theorem step_of_running {s : State} (hr : s.pins.rst = false) (hseen : s.resetSeen = true) (hl : cfgLegal s.cfg = true) :
    step s = andThen (cycle s) fun t => .next (endCycle t) := by
  simp only [step, clockEdge, hr, hseen, hl, Bool.false_eq_true, Bool.not_true, if_false]

theorem step_of_illegal {s : State} (hr : s.pins.rst = false) (hseen : s.resetSeen = true) (hl : cfgLegal s.cfg = false) :
    step s = .refused .illegalConfiguration := by
  simp only [step, clockEdge, hr, hseen, hl, Bool.false_eq_true, Bool.not_true, Bool.not_false, if_false, if_true]

/-- What a step can answer: a next state, or with `rst` = 0 one of the three refusals. -/
theorem step_next_or_refused (s : State) : (∃ t, step s = .next t) ∨ (s.pins.rst = false ∧
    ((s.resetSeen = false ∧ step s = .refused .noReset)
    ∨ (s.resetSeen = true ∧ cfgLegal s.cfg = false ∧ step s = .refused .illegalConfiguration)
    ∨ (s.em.state = .classify ∧ 253402300799999 < s.q.headEntry.ts.toNat
      ∧ step s = .refused (.timestampOutOfRange s.q.headEntry.ts)))) := by
  cases hr : s.pins.rst with
  | true => exact .inl ⟨_, step_of_rst hr⟩
  | false =>
    cases hseen : s.resetSeen with
    | false => exact .inr ⟨rfl, .inl ⟨rfl, step_of_no_reset hr hseen⟩⟩
    | true =>
      cases hl : cfgLegal s.cfg with
      | false => exact .inr ⟨rfl, .inr (.inl ⟨rfl, rfl, step_of_illegal hr hseen hl⟩)⟩
      | true =>
        rw [step_of_running hr hseen hl]
        obtain ⟨t, ht⟩ | ⟨hst, hgt, ht⟩ := cycle_next_or_refused s
        · exact .inl ⟨_, by rw [ht, andThen_next]⟩
        · exact .inr ⟨rfl, .inr (.inr ⟨hst, hgt, by rw [ht, andThen_refused]⟩)⟩

/-- R17: the four conditions of an illegal configuration. -/
theorem cfgLegal_eq_false_iff (c : Cfg) : cfgLegal c = false ↔
    (c.baudDiv.toNat < 4 ∨ c.parity ∈ [5, 6, 7] ∨ c.stop = 3 ∨ (c.tmoOvrEn = true ∧ c.tmoOvr = 0)) := by
  have hparity : c.parity ∈ [5, 6, 7] ↔ ¬ c.parity.toNat ≤ 4 := by
    have h : ∀ p : BitVec 3, p ∈ [5, 6, 7] ↔ ¬ p.toNat ≤ 4 := by decide
    exact h c.parity
  have hstop : c.stop = 3 ↔ ¬ c.stop.toNat ≤ 2 := by
    have h : ∀ p : BitVec 2, p = 3 ↔ ¬ p.toNat ≤ 2 := by decide
    exact h c.stop
  rw [← Bool.not_eq_true, cfgLegal_iff, hparity, hstop, ← Nat.not_le]
  tauto

/-- R137: no operation has a fault as its outcome. -/
theorem exec_ne_fault (i : Instr) (s : State) (r : Fault) : exec i s ≠ .fault r := by
  cases i with
  | eCrcStep => rw [exec_eCrcStep]; nofun
  | eCrcNextByte => rw [exec_eCrcNextByte]; nofun
  | eCrcDone => rw [exec_eCrcDone]; nofun
  | eClassify =>
    obtain hgt | hle := Nat.lt_or_ge 253402300799999 s.q.headEntry.ts.toNat
    · rw [exec_eClassify_of_gt hgt]
      nofun
    · obtain ⟨fmt, -, hexec⟩ := exec_eClassify_of_le hle
      rw [hexec]
      nofun
  | timestamp ts =>
    obtain hgt | hle := Nat.lt_or_ge 253402300799999 ts.toNat
    · rw [exec_timestamp_of_gt hgt]
      nofun
    · rw [exec_timestamp_of_le hle]
      nofun
  | line st v ts f =>
    change execLine st v ts f s ≠ _
    rw [execLine_eq]
    split <;> nofun
  | queueCommit =>
    obtain ⟨t, ht⟩ := queueCommit_next s
    change queueCommit s ≠ _
    rw [ht]
    nofun
  | _ => nofun

/-- R57: from the run invariant the fault record grows by overruns alone. -/
theorem faults_of_runInv {s t : State} (hs : RunInv s) (h : step s = .next t) :
    ∃ fs, t.faults = s.faults ++ fs ∧ ∀ r ∈ fs, ∃ n ts, r = .overrun n ts := by
  cases hr : s.pins.rst with
  | true =>
    obtain rfl := eq_afterReset_of_step hr h
    exact ⟨[], (List.append_nil _).symm, List.forall_mem_nil _⟩
  | false =>
    obtain ⟨s1, s2, s3, s4, hp, rfl⟩ := runParts_of_step hr h
    have hu : s1.faults = s.faults := hp.receiver_faults_of_row fun hst => by
      have hi := hs.uart
      simp only [List.mem_cons, List.not_mem_nil, or_false] at hst
      obtain hst | hst := hst
      · exact ((uartInv_of_halt hst).1 hi).2
      · simp only [UartInv, hst] at hi
    have hc : s2.faults = s1.faults := hp.collector_faults_of_row fun hst => ((collectorInv_of_halt hst).1 hs.col).2
    rw [← hu, ← hc]
    exact hp.faults_of_commit

/-- R137: the fault record only grows. -/
theorem faults_grow {s t : State} (h : step s = .next t) : ∃ fs, t.faults = s.faults ++ fs := by
  cases hr : s.pins.rst with
  | true =>
    obtain rfl := eq_afterReset_of_step hr h
    exact ⟨[], (List.append_nil _).symm⟩
  | false =>
    obtain ⟨s1, s2, s3, s4, hp, rfl⟩ := runParts_of_step hr h
    obtain ⟨fu, hu⟩ := hp.faults_of_receiver
    obtain ⟨fc, hc⟩ := hp.faults_of_collector
    obtain ⟨fq, hq, -⟩ := hp.faults_of_commit
    exact ⟨fu ++ fc ++ fq, by rw [endCycle_faults, hq, hc, hu]; simp only [List.append_assoc]⟩

end Sys2Proof.Machine
end

section
/-! Refusals, faults and flags: the statements of 10_state.md R17 and R23, 60_exceptions.md R137 and 70_reset_and_hazards.md R148. -/

open Sys2Proof Sys2Proof.Machine

/-- Settles O4: with `rst` = 0 after a reset, an illegal configuration is refused as such, and the only other refusal is of a time. -/
theorem illegalConfigurationIsRefused : Obligations.IllegalConfigurationIsRefused := by
  intro s hr hseen
  rw [← cfgLegal_eq_false_iff]
  refine ⟨fun h => ?_, step_of_illegal hr hseen⟩
  obtain ⟨t, ht⟩ | ⟨-, ⟨-, ht⟩ | ⟨-, hl, -⟩ | ⟨-, -, ht⟩⟩ := step_next_or_refused s
  · rw [ht] at h
    cases h
  · rw [ht] at h
    cases h
  · exact hl
  · rw [ht] at h
    cases h

/-- Settles O58: a step answers a next state or one of three refusals, and from the invariant only the commit raises a fault. -/
theorem faultsAndRefusalsAreTheListedOnes : Obligations.FaultsAndRefusalsAreTheListedOnes := by
  refine ⟨fun s r h => ?_, exec_ne_fault, fun s t hs h => faults_of_runInv hs h, fun s r h => ?_⟩
  · obtain ⟨t, ht⟩ | ⟨-, ⟨-, ht⟩ | ⟨-, -, ht⟩ | ⟨-, -, ht⟩⟩ := step_next_or_refused s <;> rw [ht] at h <;> cases h
  · obtain ⟨t, ht⟩ | ⟨hr, ⟨hseen, ht⟩ | ⟨-, hl, ht⟩ | ⟨hst, hgt, ht⟩⟩ := step_next_or_refused s <;> rw [ht] at h <;> cases h
    · exact ⟨hr, .inr (.inr ⟨rfl, hseen⟩)⟩
    · exact ⟨hr, .inl ⟨rfl, (cfgLegal_eq_false_iff _).1 hl⟩⟩
    · exact ⟨hr, .inr (.inl ⟨rfl, hst, hgt⟩)⟩

/-- Settles O59: each of the three refusals of a step is excluded by a hypothesis. -/
theorem legalRunsGoOn : Obligations.LegalRunsGoOn := by
  intro s hrun hts
  obtain h | ⟨hr, hcase⟩ := step_next_or_refused s
  · exact h
  obtain hrst | ⟨hseen, hl⟩ := hrun
  · exact absurd hr (by simp [hrst])
  obtain ⟨hno, -⟩ | ⟨-, hill, -⟩ | ⟨hst, hgt, -⟩ := hcase
  · exact absurd hno (by simp [hseen])
  · exact absurd hill (by simp [hl])
  · exact absurd (hts hst) hgt.not_ge

/-- Settles O53: each part of a cycle appends to the fault record and sets flags by an OR, and FATAL_ENTRY alone drives `sts_fatal`. -/
theorem flagsAreSticky : Obligations.FlagsAreSticky := by
  refine ⟨fun s t h => ?_, fun s t hr h => ?_⟩
  · obtain ⟨fs, hfs⟩ := faults_grow h
    refine ⟨⟨fs, hfs⟩, fun hs ht => hs ?_⟩
    rw [ValidFinal, hfs] at ht
    exact (List.append_eq_nil_iff.1 ht).1
  · obtain ⟨s1, s2, s3, s4, hp, rfl⟩ := runParts_of_step hr h
    rw [endCycle_flags, hp.perr_eq, hp.ferr_eq]
    exact ⟨fun hf => by rw [hf, Bool.true_or], fun hf => by rw [hf, Bool.true_or], hp.overrun_of.1, hp.fatal_eq⟩

end

section
/-! SUPPORT. Selector words without a row, and the receiver and the collector that meet one (30_encoding.md R57); the receiver's strobe
(40_uart_rx.md R61); and the fatal stop (60_exceptions.md R134, R145). -/

namespace Sys2Proof.Machine

/-- R57: every word of the three engines without a reserved state has a row. -/
theorem exists_ops_of_decode_isOk {sel : Selector} (h : (decode sel).isOk = true) : ∃ ops, decode sel = .ok ops := by
  cases hd : decode sel with
  | ok ops => exact ⟨ops, rfl⟩
  | error e =>
    rw [hd] at h
    cases h

theorem decode_ksel_isOk : ∀ w, (decode (.ksel w)).isOk = true := by decide

theorem decode_vsel_isOk : ∀ w, (decode (.vsel w)).isOk = true := by decide

theorem decode_esel_isOk : ∀ w, (decode (.esel w)).isOk = true := by decide +kernel

theorem decode_usel_eq_error_iff : ∀ w : BitVec 8,
    decode (.usel w) = .error (.noRow .uart w) ↔ (0x60 ≤ w.toNat ∧ w.toNat ≤ 0x7F) := by decide +kernel

theorem decode_csel_eq_error_iff : ∀ w : BitVec 6,
    decode (.csel w) = .error (.noRow .collector (w.setWidth 8)) ↔ (0x18 ≤ w.toNat ∧ w.toNat ≤ 0x1F) := by decide +kernel

/-- R57 (log entry 18): without a row only the synchronizer shifts. -/
theorem uartPart_of_no_row {s : State} (hstop : s.sig.stop = false) (hst : s.uart.state = .halt ∨ s.uart.state = .reserved) :
    uartPart s = .next (raiseFault (.unreachable .uart (usel (sampleLine s))) (sampleLine s)) := by
  refine uartPart_of_no_op ?_
  rw [receiverOp, hstop]
  obtain hst | hst := hst <;> rw [hst] <;> rfl

theorem collectorPart_of_no_row {s : State} (hstop : s.sig.stop = false) (hst : s.col.state = .halt) :
    collectorPart s = .next (raiseFault (.unreachable .collector ((csel s).setWidth 8)) s) := by
  refine collectorPart_of_no_op ?_
  rw [selectedCollectorOp, hstop, hst]
  rfl

/-! ## The receiver's strobe -/

/-- R61: a strobe is the stop sample's, and without one the receiver drives nothing. -/
theorem uartMove_strobe {s : State} {u : Uart} {rx : Rx} (hm : UartMove s u rx) :
    (rx.strobe = true ↔ s.uart.state = .stop ∧ s.uart.cnt = s.cfg.baudDiv) ∧ (rx.strobe = false → rx = .quiet) := by
  have quiet (hno : ¬ (s.uart.state = .stop ∧ s.uart.cnt = s.cfg.baudDiv)) :
      (Rx.quiet.strobe = true ↔ s.uart.state = .stop ∧ s.uart.cnt = s.cfg.baudDiv) ∧ (Rx.quiet.strobe = false → Rx.quiet = .quiet) :=
    ⟨iff_of_false Bool.false_ne_true hno, fun _ => rfl⟩
  cases hm with
  | wait hst | startDetect hst | startConfirm hst | toIdle hst | dataSample hst | dataLast hst | parSample hst =>
    refine quiet fun h => ?_
    rw [h.1] at hst
    simp at hst
  | count hst hit =>
    refine quiet fun h => ?_
    rw [uHit_bit (by simp [h.1]), h.2, beq_self_eq_true] at hit
    cases hit
  | stopSample hst hit =>
    rw [uHit_bit (by simp [hst]), beq_iff_eq] at hit
    exact ⟨iff_of_true rfl ⟨hst, hit⟩, fun h => by cases h⟩

/-! ## The fatal stop -/

/-- R121: with an empty queue an idle emitter waits. -/
theorem emitterMove_of_empty {s : State} {e : Emitter} {r : Record} (hm : EmitterMove s e r) (hc : s.q.count = 0)
    (hidle : s.em.state = .idle) : e = s.em := by
  cases hm with
  | wait => rfl
  | dequeueShort _ hne | dequeueCrc _ hne => exact absurd hc hne
  | crcStep hst | crcNextByte hst | crcDone hst | classify hst | lineChar hst | lineLast hst => cases hidle.symm.trans hst

namespace RunParts

variable {s s1 s2 s3 s4 : State} (hp : RunParts s s1 s2 s3 s4)
include hp

/-- R63, R134: in a cycle with `stop` the receiver halts. -/
theorem receiver_stopped (hf : (s.flags.fatal || s.pins.srcErr) = true) :
    s1 = uartEnd { (sampleLine (fatalEntry (beginCycle s))).uart with state := .halt } .quiet (sampleLine (fatalEntry (beginCycle s))) := by
  have hstop : (fatalEntry (beginCycle s)).sig.stop = true := (fatalEntry_stop _).trans hf
  obtain ⟨-, h⟩ | ⟨hrun, -⟩ | ⟨hrun, -⟩ := uartPart_cases hp.receiver
  · exact h
  · cases hstop.symm.trans hrun
  · cases hstop.symm.trans hrun

/-- R82, R134: in a cycle with `stop` the collector halts. -/
theorem collector_stopped (hf : (s.flags.fatal || s.pins.srcErr) = true) :
    s2 = colEnd { s.col with state := .halt, len := 0, timer := 0 } none (popPart s1) := by
  have hstop : (popPart s1).sig.stop = true := hp.collector_sees_stop.trans ((fatalEntry_stop _).trans hf)
  rw [← hp.collector_sees_col]
  obtain ⟨-, h⟩ | ⟨hrun, -⟩ | ⟨hrun, -⟩ := collectorPart_cases hp.collector
  · exact h
  · cases hstop.symm.trans hrun
  · cases hstop.symm.trans hrun

/-- R134, R135: after the cycle of the fatal entry no flag changes. -/
theorem flags_of_fatal (hf : s.flags.fatal = true) : s4.flags = s.flags := by
  have hstop : (s.flags.fatal || s.pins.srcErr) = true := by rw [hf, Bool.true_or]
  have hrx : s1.sig.rx = .quiet := by rw [hp.receiver_stopped hstop]; rfl
  have hpush : s2.sig.push = none := by rw [hp.collector_stopped hstop]; rfl
  have hperr : s4.flags.perr = s.flags.perr := by rw [hp.perr_eq, hrx]; exact Bool.or_false _
  have hferr : s4.flags.ferr = s.flags.ferr := by rw [hp.ferr_eq, hrx]; exact Bool.or_false _
  have hfatal : s4.flags.fatal = s.flags.fatal := by rw [hp.fatal_eq, hstop, hf]
  have hoverrun := hp.overrun_of.2 hpush
  change (⟨s4.flags.perr, s4.flags.ferr, s4.flags.overrun, s4.flags.fatal⟩ : Flags) = s.flags
  rw [hperr, hferr, hoverrun, hfatal]

/-- R145: a halted emitter with an empty queue waits. -/
theorem em_of_halted (hc : s.q.count = 0) (hidle : s.em.state = .idle) : s4.em = s.em := by
  rw [hp.em_kept, ← hp.emitter_sees_em]
  exact emitterMove_of_empty (emitterPart_move hp.emitter) (by rwa [hp.emitter_sees_q]) (by rwa [hp.emitter_sees_em])

/-- R145: with the collector halted and the emitter idle the commit neither pushes nor pops. -/
theorem q_of_halted (hf : s.flags.fatal = true) (hidle : s.em.state = .idle) : s4.q = s.q := by
  have hpush : s3.sig.push = none := by
    rw [hp.commit_sees_push, hp.collector_stopped (by rw [hf, Bool.true_or])]
    rfl
  have hpop : s3.sig.pop = false := by
    rw [hp.commit_sees_pop, popRequest, hidle]
    rfl
  obtain ⟨-, rfl⟩ | ⟨p, hp', -⟩ | ⟨p, hp', -⟩ := queueCommit_cases hp.commit
  · rw [setQ_q, hpop, hp.commit_sees_q]
    rfl
  · cases hpush.symm.trans hp'
  · cases hpush.symm.trans hp'

end RunParts

/-- R118: what the outputs of a cycle read. -/
theorem outputs_of_eq {s t : State} (hr : s.pins.rst = t.pins.rst) (hf : t.flags = s.flags) (hq : t.q = s.q) (he : t.em = s.em)
    (hrec : t.record = s.record) : outputs t = outputs s := by
  simp only [outputs, halted, hr, hf, hq, he, hrec]

end Sys2Proof.Machine
end

section
/-! One step: the statements of 30_encoding.md R57, 00_scope.md R10, 40_uart_rx.md R61, 41_frame_collector.md R84, 45_record_pipeline.md R118
and R120, 10_state.md R22, and 60_exceptions.md R134, R135 and R145. -/

open Sys2Proof Sys2Proof.Machine

/-- Settles O9: the words are looked up in the tables. -/
theorem tableWordsDecode : Obligations.TableWordsDecode := by
  refine ⟨?_, ?_, ?_, ?_, ?_, ?_, ?_, ?_, ?_, ?_⟩ <;> decide

/-- Settles O8: the words are looked up in the tables, and an engine without a row leaves its registers and signals to the end of the cycle. -/
theorem reservedSelectorsFault : Obligations.ReservedSelectorsFault := by
  refine ⟨decode_usel_eq_error_iff, decode_csel_eq_error_iff, fun sel hu hc => ?_, fun s hstop hst => ?_, fun s hstop hst => ?_,
    fun s t hr hfatal hsrc h => ?_⟩
  · refine exists_ops_of_decode_isOk ?_
    cases sel with
    | usel w => exact absurd rfl hu
    | csel w => exact absurd rfl hc
    | ksel w => exact decode_ksel_isOk w
    | vsel w => exact decode_vsel_isOk w
    | esel w => exact decode_esel_isOk w
  · exact ⟨_, uartPart_of_no_row hstop hst⟩
  · exact ⟨_, collectorPart_of_no_row hstop hst⟩
  · obtain ⟨s1, s2, s3, s4, hp, rfl⟩ := runParts_of_step hr h
    have hstop : (fatalEntry (beginCycle s)).sig.stop = false := by
      rw [fatalEntry_stop, beginCycle_flags, beginCycle_pins, hfatal, hsrc, Bool.or_false]
    constructor
    · intro hst
      have hu := hp.receiver
      rw [uartPart_of_no_row hstop hst] at hu
      have hs1 := (Host.Outcome.next.inj hu).symm
      obtain ⟨fc, hc⟩ := hp.faults_of_collector
      obtain ⟨fq, hq, -⟩ := hp.faults_of_commit
      refine ⟨usel (sampleLine (fatalEntry (beginCycle s))), fc ++ fq, ?_, ?_, ?_⟩
      · rw [endCycle_faults, hq, hc, hs1]
        simp
      · rw [endCycle_uart, hp.uart_kept, hs1]
        rfl
      · rw [endCycle_sig, hp.rx_kept, hs1]
        rfl
    · intro hhalt hres hst
      have hs1 : s1.faults = s.faults := hp.receiver_faults_of_row fun hmem => by
        simp only [List.mem_cons, List.not_mem_nil, or_false] at hmem
        exact absurd hmem (not_or_intro hhalt hres)
      have hc := hp.collector
      rw [collectorPart_of_no_row (hp.collector_sees_stop.trans hstop) (by rw [hp.collector_sees_col, hst])] at hc
      have hs2 := (Host.Outcome.next.inj hc).symm
      obtain ⟨fq, hq, -⟩ := hp.faults_of_commit
      refine ⟨(csel (popPart s1)).setWidth 8, fq, ?_, ?_, ?_⟩
      · rw [endCycle_faults, hq, hs2, raiseFault_faults, popPart_faults, hs1]
        simp
      · rw [endCycle_col, hp.col_kept, hs2, raiseFault_col, hp.collector_sees_col]
      · rw [endCycle_sig, hp.push_kept, hs2, raiseFault_sig, hp.collector_sees_no_push]

/-- Settles O10: a part whose selector decodes to one operation is that operation. -/
theorem stepRunsTheDecodedOperations : Obligations.StepRunsTheDecodedOperations := by
  intro s s0 s1 s2 s3 s4 iu ic ie hr hseen hl h0 ⟨hdu, hu⟩ ⟨hdc, hc⟩ ⟨hde, he⟩ hq
  have h0' : fatalEntry (beginCycle s) = s0 := Host.Outcome.next.inj h0
  have hu' : uartPart s0 = .next s1 := (runSelector_of_decode hdu _).trans hu
  have hc' : collectorPart (popPart s1) = .next s2 := (runSelector_of_decode hdc _).trans hc
  have he' : emitterPart s2 = .next s3 := (runSelector_of_decode hde _).trans he
  rw [step_of_running hr hseen hl, cycle_eq, h0', hu', andThen_next, hc', andThen_next, he', andThen_next]
  exact congrArg (andThen · _) hq

/-- Settles O19: the receiver's part alone drives its signals, and of its moves only the stop sample strobes. -/
theorem strobeOnlyAtStopSample : Obligations.StrobeOnlyAtStopSample := by
  intro s t hr h
  obtain ⟨s1, s2, s3, s4, hp, rfl⟩ := runParts_of_step hr h
  rw [endCycle_sig, hp.rx_kept]
  have hstop := fatalEntry_stop (beginCycle s)
  rw [beginCycle_flags, beginCycle_pins] at hstop
  obtain ⟨hs, rfl⟩ | ⟨hs, u, rx, hm, rfl⟩ | ⟨hs, hst, rfl⟩ := uartPart_cases hp.receiver
  · refine ⟨iff_of_false Bool.false_ne_true fun ⟨hfatal, hsrc, _⟩ => ?_, fun _ => rfl⟩
    rw [hstop, hfatal, hsrc] at hs
    cases hs
  · obtain ⟨hstrobe, hquiet⟩ := uartMove_strobe hm
    rw [hstop, Bool.or_eq_false_iff] at hs
    refine ⟨hstrobe.trans ?_, hquiet⟩
    rw [and_iff_right hs.1, and_iff_right hs.2]
    rfl
  · refine ⟨iff_of_false Bool.false_ne_true fun ⟨_, _, hstop', _⟩ => ?_, fun _ => rfl⟩
    change s.uart.state ∈ _ at hst
    rw [hstop'] at hst
    simp at hst

/-- Settles O23: no operation of the collector leads to C_SETTLE but the wait in it. -/
theorem settleHappensOnce : Obligations.SettleHappensOnce := by
  intro s t hr hst h
  obtain ⟨s1, s2, s3, s4, hp, rfl⟩ := runParts_of_step hr h
  rw [endCycle_col, hp.col_kept]
  rw [← hp.collector_sees_col] at hst
  obtain ⟨-, rfl⟩ | ⟨-, c, p, hm, rfl⟩ | ⟨-, -, rfl⟩ := collectorPart_cases hp.collector
  · nofun
  · cases hm with
    | settleWait hs | settleDrain hs => exact absurd hs hst
    | wait | emptyRead | append => exact hst
    | firstByte | silenceClose | fullClose => nofun
  · exact hst

/-- Settles O47: the cycle's first part drives the outputs of the start-of-cycle state, and E_LINE's operations drive the same values. -/
theorem outputsAreMoore : Obligations.OutputsAreMoore := by
  refine fun s t h => ⟨fun hr => ?_, fun hr valid last ch hvalid hlast hno hchar => ?_⟩
  · obtain rfl := eq_afterReset_of_step hr h
    rfl
  · obtain ⟨s1, s2, s3, s4, hp, rfl⟩ := runParts_of_step hr h
    rw [endCycle_sig, hp.out_eq hr]
    have hch : (if s.em.state = .line then lineChar s.em else 0) = ch := by
      by_cases hst : s.em.state = .line
      · rw [if_pos hst, lineChar, List.getD_eq_getElem?_getD, hchar (by rw [hvalid, decide_eq_true hst])]
        rfl
      · rw [if_neg hst, hno (by rw [hvalid, decide_eq_false hst])]
    simp only [outputs, halted, lineLast, hr, Bool.false_eq_true, if_false, hch, Bool.beq_eq_decide_eq, hlast, hvalid]

/-- Settles O48: only the emitter's part writes the record, and of its operations only E_CLASSIFY. -/
theorem recordWrittenOnlyInClassify : Obligations.RecordWrittenOnlyInClassify := by
  intro s t hr hst h
  obtain ⟨s1, s2, s3, s4, hp, rfl⟩ := runParts_of_step hr h
  exact hp.record_eq hst

/-- Settles O50: (a) the tail of a queue with room is not its head in use; (b) the pop makes the room. -/
theorem pushAndPopShareTheQueueSafely : Obligations.PushAndPopShareTheQueueSafely := by
  refine ⟨fun s t hc hpop h => ?_, fun s p hc hpop hpush => ?_⟩
  · obtain ⟨hhead, hentry, -⟩ := headEntry_queueCommit h hc hpop
    exact ⟨hhead, hentry⟩
  · have hq : popQueue s.sig.pop s.q = { s.q with head := s.q.head + 1, count := 1 } := by
      rw [hpop, popQueue, hc]
      rfl
    refine ⟨_, exec_queueCommit_of_room hpush (by rw [hq]; exact Nat.one_lt_two), ?_⟩
    rw [hq]
    exact ⟨rfl, pushQueue_head _ _, rfl, rfl, headEntry_pushQueue rfl p⟩

/-- Settles O52: with `stop` both engines run their STOPPED operations. -/
theorem fatalStopHoldsUntilReset : Obligations.FatalStopHoldsUntilReset := by
  intro s t hr hfatal h
  obtain ⟨s1, s2, s3, s4, hp, rfl⟩ := runParts_of_step hr h
  have hf : (s.flags.fatal || s.pins.srcErr) = true := by rwa [Bool.or_eq_true, or_comm]
  have h1 := hp.receiver_stopped hf
  have h2 := hp.collector_stopped hf
  have hpush : s2.sig.push = none := by rw [h2]; rfl
  refine ⟨hp.fatal_eq.trans hf, ?_, ?_, ?_, ?_, hp.push_kept.trans hpush, ?_, hp.overrun_of.2 hpush⟩
  · rw [endCycle_uart, hp.uart_kept, h1]
    rfl
  · rw [endCycle_col, hp.col_kept, h2]
    rfl
  · rw [endCycle_col, hp.col_kept, h2]
    rfl
  · rw [endCycle_sig, hp.rx_kept, h1]
    rfl
  · rw [endCycle_col, hp.col_kept, h2]
    rfl

/-- Settles O54: everything that the outputs read stays. -/
theorem haltedOutputsStayConstant : Obligations.HaltedOutputsStayConstant := by
  intro s t hr hhalt h ht
  obtain ⟨s1, s2, s3, s4, hp, rfl⟩ := runParts_of_step hr h
  simp only [outputs, hr, Bool.false_eq_true, if_false, halted, Bool.and_eq_true, beq_iff_eq] at hhalt
  obtain ⟨⟨hfatal, hcount⟩, hidle⟩ := hhalt
  exact outputs_of_eq (hr.trans ht.symm) (hp.flags_of_fatal hfatal) (hp.q_of_halted hfatal hidle) (hp.em_of_halted hcount hidle)
    (hp.record_eq (by rw [hidle]; nofun))

end

section
/-! SUPPORT. Two runs side by side: CFG_STOP is read by no part of a cycle (30_encoding.md R45), and byte content by no boundary decision
(41_frame_collector.md R80). -/

namespace Sys2Proof.Machine

/-! ## The stop-bit code -/

/-- The state with another stop-bit code. -/
def State.withStopCode (x : BitVec 2) (s : State) : State := { s with cfg := { s.cfg with stop := x } }

theorem driveFmt_withStopCode (x : BitVec 2) (f : Fmt) (s : State) : driveFmt f (s.withStopCode x) = (driveFmt f s).withStopCode x := rfl

/-- R118: no output depends on the stop-bit code. -/
theorem outputs_withStopCode (x : BitVec 2) (s : State) : outputs (s.withStopCode x) = outputs s := rfl

theorem beginCycle_withStopCode (x : BitVec 2) (s : State) : beginCycle (s.withStopCode x) = (beginCycle s).withStopCode x := by
  rw [beginCycle, outputs_withStopCode]
  rfl

theorem fatalEntry_withStopCode (x : BitVec 2) (s : State) : fatalEntry (s.withStopCode x) = (fatalEntry s).withStopCode x := rfl

section
variable {s t : State} (x : BitVec 2)

/-- R45: no operation reads the stop-bit code. -/
theorem exec_withStopCode {i : Instr} (h : exec i s = .next t) : exec i (s.withStopCode x) = .next (t.withStopCode x) := by
  cases i with
  | eCrcStep =>
    rw [exec_eCrcStep] at h ⊢
    cases h
    rfl
  | eCrcNextByte =>
    rw [exec_eCrcNextByte] at h ⊢
    cases h
    rfl
  | eCrcDone =>
    rw [exec_eCrcDone] at h ⊢
    cases h
    rfl
  | eClassify =>
    rw [exec_eClassify] at h ⊢
    change andThen (execLine ..) _ = _ at h
    change andThen (execLine ..) _ = _
    rw [execLine_eq] at h ⊢
    by_cases hts : Config.tsMax < (headRecord s).ts.toNat
    · rw [if_pos hts] at h
      cases h
    · rw [if_neg hts] at h
      rw [if_neg (by exact hts)]
      cases h
      rfl
  | timestamp ts =>
    obtain hgt | hle := Nat.lt_or_ge 253402300799999 ts.toNat
    · rw [exec_timestamp_of_gt hgt] at h
      cases h
    · rw [exec_timestamp_of_le hle] at h ⊢
      rw [← Host.Outcome.next.inj h]
      exact congrArg Host.Outcome.next (driveFmt_withStopCode x _ s)
  | line st v ts f =>
    change execLine st v ts f s = _ at h
    change execLine st v ts f _ = _
    rw [execLine_eq] at h ⊢
    split at h
    next => cases h
    next hts =>
      rw [if_neg hts]
      cases h
      rfl
  | queueCommit =>
    obtain ⟨hp, rfl⟩ | ⟨p, hp, hroom, rfl⟩ | ⟨p, hp, hfull, rfl⟩ := queueCommit_cases h
    · exact exec_queueCommit_of_none (s := s.withStopCode x) hp
    · exact exec_queueCommit_of_room (s := s.withStopCode x) hp hroom
    · exact exec_queueCommit_of_full (s := s.withStopCode x) hp hfull
  | _ =>
    cases h
    rfl

theorem uartPart_withStopCode (h : uartPart s = .next t) : uartPart (s.withStopCode x) = .next (t.withStopCode x) := by
  cases hop : receiverOp s with
  | some i =>
    rw [uartPart_of_op hop] at h
    exact (uartPart_of_op (s := s.withStopCode x) hop).trans (exec_withStopCode x h)
  | none =>
    rw [uartPart_of_no_op hop] at h
    cases h
    exact uartPart_of_no_op (s := s.withStopCode x) hop

theorem collectorPart_withStopCode (h : collectorPart s = .next t) : collectorPart (s.withStopCode x) = .next (t.withStopCode x) := by
  cases hop : selectedCollectorOp s with
  | some i =>
    rw [collectorPart_of_op hop] at h
    exact (collectorPart_of_op (s := s.withStopCode x) hop).trans (exec_withStopCode x h)
  | none =>
    rw [collectorPart_of_no_op hop] at h
    cases h
    exact collectorPart_of_no_op (s := s.withStopCode x) hop

theorem emitterPart_withStopCode (h : emitterPart s = .next t) : emitterPart (s.withStopCode x) = .next (t.withStopCode x) := by
  rw [emitterPart_eq] at h ⊢
  exact exec_withStopCode x h

/-- R17, R45: a legal configuration stays legal with another legal stop-bit code. -/
theorem cfgLegal_withStopCode {x : BitVec 2} (hx : x ≠ 3) (hl : cfgLegal s.cfg = true) : cfgLegal (s.withStopCode x).cfg = true := by
  have hle : x.toNat ≤ 2 := by bv_omega
  obtain ⟨hbd, hpar, -, hovr⟩ := (cfgLegal_iff _).1 hl
  exact (cfgLegal_iff _).2 ⟨hbd, hpar, hle, hovr⟩

theorem step_withStopCode {x : BitVec 2} (hx : x ≠ 3) (hr : s.pins.rst = false) (h : step s = .next t) :
    step (s.withStopCode x) = .next (t.withStopCode x) := by
  obtain ⟨hr', -⟩ | ⟨-, hseen, hl, s1, s2, s3, s4, hu, hc, he, hq, rfl⟩ := step_cases h
  · cases hr.symm.trans hr'
  have hu' : uartPart (fatalEntry (beginCycle (s.withStopCode x))) = .next (s1.withStopCode x) := by
    rw [beginCycle_withStopCode, fatalEntry_withStopCode]
    exact uartPart_withStopCode x hu
  have hc' : collectorPart (popPart (s1.withStopCode x)) = .next (s2.withStopCode x) := collectorPart_withStopCode x hc
  have hq' : queueCommit (s3.withStopCode x) = .next (s4.withStopCode x) := exec_withStopCode x (i := .queueCommit) hq
  rw [step_of_running (s := s.withStopCode x) hr hseen (cfgLegal_withStopCode hx hl), cycle_eq, hu', andThen_next, hc', andThen_next,
    emitterPart_withStopCode x he, andThen_next, hq']
  rfl

end

/-! ## Byte content -/

/-- The state with another received byte and another `c_buf`. -/
def State.withBytes (x : Byte) (m : Memory) (s : State) : State :=
  { s with col := { s.col with buf := m }, sig := { s.sig with rx := { s.sig.rx with byte := x } } }

/-- What a boundary decision leaves: state, timer, length, and the length of the closed frame. -/
def boundaryView (s : State) : CState × BitVec 32 × BitVec 9 × Option Nat :=
  (s.col.state, s.col.timer, s.col.len, s.sig.push.map fun p => p.bytes.length)

/-- The operations of a collector cycle are those of CSEL's table. -/
theorem mem_cselRows_of_selected {s : State} {i : Instr} (h : selectedCollectorOp s = some i) : i ∈ cselRows.map Row.op := by
  have hd := decode_csel s
  rw [selectedCollectorOp] at h
  rw [h] at hd
  obtain ⟨r, hr, -, hop⟩ := exists_row_of_mem_decode hd (List.mem_singleton_self i)
  exact List.mem_map.2 ⟨r, hr, hop⟩

/-- R80: each of them reads bytes only to store or to close them. -/
theorem exec_withBytes {i : Instr} (hi : i ∈ cselRows.map Row.op) {s t : State} (x : Byte) (m : Memory) (h : exec i s = .next t) :
    ∃ t', exec i (s.withBytes x m) = .next t' ∧ boundaryView t' = boundaryView t := by
  simp only [cselRows, List.map_cons, List.map_nil, List.mem_cons, List.not_mem_nil, or_false] at hi
  obtain rfl | rfl | rfl | rfl | rfl | rfl | rfl | rfl | rfl | rfl := hi <;> cases h <;> refine ⟨_, rfl, ?_⟩ <;>
    simp [boundaryView, colEnd, colIdle, frameWrite, closeRequest, collected, State.withBytes]

theorem collectorPart_withBytes {s t : State} (x : Byte) (m : Memory) (h : collectorPart s = .next t) :
    ∃ t', collectorPart (s.withBytes x m) = .next t' ∧ boundaryView t' = boundaryView t := by
  cases hop : selectedCollectorOp s with
  | some i =>
    rw [collectorPart_of_op hop] at h
    obtain ⟨t', ht', hview⟩ := exec_withBytes (mem_cselRows_of_selected hop) x m h
    exact ⟨t', (collectorPart_of_op (s := s.withBytes x m) hop).trans ht', hview⟩
  | none =>
    rw [collectorPart_of_no_op hop] at h
    cases h
    exact ⟨_, collectorPart_of_no_op (s := s.withBytes x m) hop, rfl⟩

end Sys2Proof.Machine
end

section
/-! Two runs side by side: the statements of 30_encoding.md R45 and 41_frame_collector.md R80. -/

open Sys2Proof Sys2Proof.Machine

/-- Settles O20: every part of the cycle takes states that differ in the code to states that differ in it. -/
theorem stopCodeHasNoEffect : Obligations.StopCodeHasNoEffect := fun _ _ _ hr hx h => step_withStopCode hx hr h

/-- Settles O30: both runs select the same operation, and it leaves the same boundary. -/
theorem boundariesIgnoreByteContent : Obligations.BoundariesIgnoreByteContent := by
  intro s t x m h
  obtain ⟨t', ht', hview⟩ := collectorPart_withBytes x m h
  simp only [boundaryView, Prod.mk.injEq] at hview
  exact ⟨t', ht', hview⟩

end

section
/-! SUPPORT. The table form and the residue of the CRC (42_crc16.md R102). -/

namespace Sys2Proof.Machine

/-- While the bits that leave are 0, a bit step is a shift. -/
theorem crcBits_of_low_zero (k : Nat) {x : BitVec 16} (h : ∀ j < k, x.getLsbD j = false) : crcBits k x = x >>> k := by
  induction k generalizing x with
  | zero => exact (BitVec.ushiftRight_zero x).symm
  | succ k ih =>
    have hbit : crcBit x = x >>> 1 := if_neg (by rw [h 0 k.succ_pos]; nofun)
    rw [crcBits, hbit, ih, ← BitVec.shiftRight_add, Nat.add_comm]
    intro j hj
    rw [BitVec.getLsbD_ushiftRight]
    exact h (1 + j) (by omega)

/-- A value without its low byte has eight low bits 0, and the shift by eight loses nothing else. -/
theorem crcBits_xor_low (x : BitVec 16) : crcBits 8 (x ^^^ (x.setWidth 8).setWidth 16) = x >>> 8 := by
  rw [crcBits_of_low_zero 8]
  · apply BitVec.eq_of_getLsbD_eq
    intro j hj
    simp
  · intro j hj
    have hj' : j < 16 := by omega
    simp [hj, hj']

/-- R102: the high byte leaves the shift unchanged, and the low byte's part is its table entry. -/
theorem crcBits_eight (x : BitVec 16) : crcBits 8 x = (x >>> 8) ^^^ crcTable (x.setWidth 8) := by
  have hsplit : x = (x ^^^ (x.setWidth 8).setWidth 16) ^^^ (x.setWidth 8).setWidth 16 := by
    rw [BitVec.xor_assoc, BitVec.xor_self, BitVec.xor_zero]
  conv_lhs => rw [hsplit]
  rw [crcBits_xor, crcBits_xor_low, crcTable]

/-- R102: the table form of one byte. -/
theorem crcByte_table (c : BitVec 16) (b : Byte) : crcByte c b = (c >>> 8) ^^^ crcTable ((c ^^^ b.setWidth 16).setWidth 8) := by
  have hbyte : (b.setWidth 16) >>> 8 = 0#16 := by
    apply BitVec.eq_of_getLsbD_eq
    intro j hj
    simp
  rw [crcByte, crcBits_eight, BitVec.ushiftRight_xor_distrib, hbyte, BitVec.xor_zero]

/-- A register that meets its own low byte keeps its high byte alone. -/
theorem crcByte_low (c : BitVec 16) : crcByte c (c.setWidth 8) = c >>> 8 := crcBits_xor_low c

/-- R102: the residue of a sequence with its CRC, low byte first. -/
theorem crc16_residue (p : Frame) : crc16 (p ++ [(crc16 p).setWidth 8, (crc16 p >>> 8).setWidth 8]) = 0 := by
  have hzero : ∀ c : BitVec 16, c >>> 8 >>> 8 = 0 := by
    intro c
    rw [← BitVec.shiftRight_add]
    exact BitVec.ushiftRight_eq_zero (Nat.le_refl 16)
  calc crc16 (p ++ [(crc16 p).setWidth 8, (crc16 p >>> 8).setWidth 8])
    _ = crc16 ((p ++ [(crc16 p).setWidth 8]) ++ [(crc16 p >>> 8).setWidth 8]) := by rw [List.append_assoc]; rfl
    _ = crcByte (crc16 p >>> 8) ((crc16 p >>> 8).setWidth 8) := by rw [crc16_concat, crc16_concat, crcByte_low]
    _ = 0 := by rw [crcByte_low, hzero]

end Sys2Proof.Machine
end

section
/-! The CRC generator: the statement of 42_crc16.md R102. -/

open Sys2Proof Sys2Proof.Machine

/-- Settles O34: a register that meets its own low byte keeps its high byte alone, which then meets itself. -/
theorem crcResidueAndTableForm : Obligations.CrcResidueAndTableForm :=
  ⟨rfl, crc16_residue, crcByte_table, by decide, by decide, by decide⟩

end

section
/-! SUPPORT. A record's line at the output port (45_record_pipeline.md R118, R128; 60_exceptions.md R145): character by character, and as one
observed line. -/

namespace Sys2Proof.Machine

section
variable {s : State}

/-- R127: the LINE of the record that VALIDATE makes of the head frame. -/
def headLine (s : State) : Text :=
  let r := validate (headFrame s) s.q.headEntry.ts
  lineText r.status r.slave r.ts (headFrame s)

theorem em_line_eq_headLine (hs : RunInv s) (hst : s.em.state = .line) : s.em.line = headLine s := by
  obtain ⟨-, -, hrec, hline, -⟩ := (emitterInv_of_line hst).1 hs.em
  rw [hline, hrec, headLine]

theorem lidx_lt_length (hs : RunInv s) (hst : s.em.state = .line) : s.em.lidx.toNat < s.em.line.length := by
  obtain ⟨-, hlt, -⟩ := (emitterInv_of_line hst).1 hs.em
  exact hlt

/-! ## The outputs of an E_LINE cycle -/

section
variable (hr : s.pins.rst = false) (hst : s.em.state = .line)
include hr hst

theorem outputs_lineChar : (outputs s).lineChar = lineChar s.em := by
  simp only [outputs, hr, hst, Bool.false_eq_true, if_false, if_true]

theorem outputs_lineValid : (outputs s).lineValid = true := by
  simp only [outputs, hr, hst, Bool.false_eq_true, if_false, beq_self_eq_true]

theorem outputs_lineLast : (outputs s).lineLast = (s.em.lidx.toNat + 1 == s.em.line.length) := by
  simp only [outputs, hr, hst, Bool.false_eq_true, if_false, beq_self_eq_true, Bool.true_and, lineLast]

theorem outputs_recValid : (outputs s).recValid = (s.em.lidx == 0) := by
  simp only [outputs, hr, hst, Bool.false_eq_true, if_false, beq_self_eq_true, Bool.true_and]

theorem line_getElem?_outputs (hlt : s.em.lidx.toNat < s.em.line.length) :
    s.em.line[s.em.lidx.toNat]? = some (outputs s).lineChar := by
  rw [outputs_lineChar hr hst, lineChar, List.getD_eq_getElem?_getD, List.getElem?_eq_getElem hlt]
  rfl

/-- R145: the open line of an E_LINE cycle is the line up to that cycle's character, if that of the cycle before was up to the one before. -/
theorem openLine_outputs (hlt : s.em.lidx.toNat < s.em.line.length) {cur : Option Text}
    (hcur : s.em.lidx = 0 ∨ cur = some (s.em.line.take s.em.lidx.toNat)) :
    openLine cur (outputs s) = some (s.em.line.take (s.em.lidx.toNat + 1)) := by
  have hchar := line_getElem?_outputs hr hst hlt
  have htake : s.em.line.take (s.em.lidx.toNat + 1) = s.em.line.take s.em.lidx.toNat ++ [(outputs s).lineChar] := by
    rw [List.take_add_one, hchar]
    rfl
  rw [openLine, outputs_recValid hr hst, outputs_lineValid hr hst, htake]
  by_cases h0 : s.em.lidx = 0
  · rw [if_pos (beq_iff_eq.2 h0), h0]
    rfl
  · rw [if_neg (by simpa using h0), if_pos rfl, hcur.resolve_left h0]
    rfl

end

end

/-! ## The next cycle -/

/-- Inputs without a reset stay so: those of the next cycle are the script's next or the defaults of R58. -/
theorem nextPins_rst {s : State} (h : ∀ i ∈ s.script, i.rst = false) : (nextPins s).rst = false := by
  unfold nextPins
  split
  next i _ hs => exact h i (by rw [hs]; exact List.mem_cons_self ..)
  next => rfl

/-- R128: before its last character E_LINE goes on to the next. -/
theorem emitterMove_of_lineChar {s : State} {e : Emitter} {r : Record} (hm : EmitterMove s e r) (hst : s.em.state = .line)
    (hlast : s.em.lidx.toNat + 1 ≠ s.em.line.length) : e = { s.em with lidx := s.em.lidx + 1 } := by
  cases hm with
  | lineChar => rfl
  | lineLast _ heq => exact absurd heq hlast
  | wait hst' | dequeueShort hst' | dequeueCrc hst' | crcStep hst' | crcNextByte hst' | crcDone hst' | classify hst' =>
    cases hst.symm.trans hst'

theorem RunParts.em_of_lineChar {s s1 s2 s3 s4 : State} (hp : RunParts s s1 s2 s3 s4) (hst : s.em.state = .line)
    (hlast : s.em.lidx.toNat + 1 ≠ s.em.line.length) : s4.em = { s.em with lidx := s.em.lidx + 1 } := by
  rw [hp.em_kept, ← hp.emitter_sees_em]
  exact emitterMove_of_lineChar (emitterPart_move hp.emitter) (by rwa [hp.emitter_sees_em]) (by rwa [hp.emitter_sees_em])

/-- A state in which the rest of a line goes out undisturbed. -/
structure LineRun (s : State) : Prop where
  inv : RunInv s
  legal : cfgLegal s.cfg = true
  line : s.em.state = .line
  noRst : s.pins.rst = false
  noLaterRst : ∀ i ∈ s.script, i.rst = false

theorem LineRun.step_next {s : State} (h : LineRun s) : ∃ t, step s = .next t := by
  obtain hnext | ⟨-, ⟨hseen, -⟩ | ⟨-, hl, -⟩ | ⟨hst, -⟩⟩ := step_next_or_refused s
  · exact hnext
  · cases hseen.symm.trans h.inv.resetSeen
  · cases hl.symm.trans h.legal
  · cases hst.symm.trans h.line

theorem LineRun.step_lineChar {s t : State} (h : LineRun s) (hlast : s.em.lidx.toNat + 1 ≠ s.em.line.length) (ht : step s = .next t) :
    LineRun t ∧ t.em = { s.em with lidx := s.em.lidx + 1 } := by
  have hinv := runInv_step h.inv ht
  obtain ⟨s1, s2, s3, s4, hp, rfl⟩ := runParts_of_step h.noRst ht
  have hem : (endCycle s4).em = _ := hp.em_of_lineChar h.line hlast
  refine ⟨⟨hinv, ?_, ?_, ?_, ?_⟩, hem⟩
  · rw [endCycle_cfg, hp.cfg_kept]
    exact h.legal
  · rw [hem]
    exact h.line
  · refine nextPins_rst ?_
    rw [hp.script_kept]
    exact h.noLaterRst
  · rw [endCycle_script, hp.script_kept]
    exact fun i hi => h.noLaterRst i (List.mem_of_mem_tail hi)

/-- R145: the cycles from a character on complete the line that is open before it. -/
theorem observe_line {n : Nat} {s : State} (h : LineRun s) (hn : s.em.lidx.toNat + n = s.em.line.length) :
    ∃ o, observe n s = .next o
      ∧ ∀ cur, (s.em.lidx = 0 ∨ cur = some (s.em.line.take s.em.lidx.toNat)) → linesFrom cur o.outputs = [s.em.line] := by
  have hlt := lidx_lt_length h.inv h.line
  induction n generalizing s with
  | zero => exact absurd hn hlt.ne
  | succ n ih =>
    obtain ⟨t, ht⟩ := h.step_next
    have hopen {cur : Option Text} := openLine_outputs h.noRst h.line hlt (cur := cur)
    rw [observe_succ ht]
    by_cases hlast : s.em.lidx.toNat + 1 = s.em.line.length
    · obtain rfl : n = 0 := by omega
      refine ⟨⟨[outputs s], t.faults⟩, rfl, fun cur hcur => ?_⟩
      rw [linesFrom, outputs_lineLast h.noRst h.line, if_pos (beq_iff_eq.2 hlast), hopen hcur, hlast, List.take_length]
      rfl
    · obtain ⟨hrun, hem⟩ := h.step_lineChar hlast ht
      have hmax : s.em.line.length < 1024 :=
        (length_em_line_le h.inv.queue h.inv.em h.line).trans_lt (by decide)
      have hidx : t.em.lidx.toNat = s.em.lidx.toNat + 1 := by
        rw [hem]
        simp only
        bv_omega
      have hline : t.em.line = s.em.line := by rw [hem]
      obtain ⟨o, ho, hlines⟩ := ih hrun (by rw [hline, hidx]; omega) (lidx_lt_length hrun.inv hrun.line)
      refine ⟨⟨outputs s :: o.outputs, o.faults⟩, by rw [ho]; rfl, fun cur hcur => ?_⟩
      rw [linesFrom, outputs_lineLast h.noRst h.line, if_neg (by simpa using hlast), hopen hcur, ← hidx, ← hline]
      exact hlines _ (.inr rfl)

end Sys2Proof.Machine
end

section
/-! The output port: the statement of 45_record_pipeline.md R118 and R128 and 60_exceptions.md R145. -/

open Sys2Proof Sys2Proof.Machine

/-- Settles O60: in E_LINE the invariant says that `e_line` is the head frame's LINE, and an E_LINE cycle puts out its next character. -/
theorem outputCharactersAreTheRecordsLine : Obligations.OutputCharactersAreTheRecordsLine := by
  refine ⟨fun s hs hr hst => ?_, fun s hs hl hst hidx hr hscript => ?_⟩
  · intro r
    have hchar := line_getElem?_outputs hr hst (lidx_lt_length hs hst)
    rw [em_line_eq_headLine hs hst] at hchar
    obtain ⟨-, -, hrec, -⟩ := (emitterInv_of_line hst).1 hs.em
    refine ⟨hchar, ?_⟩
    simp only [outputs, hr, Bool.false_eq_true, if_false, hrec]
    exact ⟨rfl, rfl, rfl, rfl, rfl, rfl⟩
  · intro r line
    have hline : s.em.line = line := em_line_eq_headLine hs hst
    obtain ⟨o, ho, hlines⟩ := observe_line ⟨hs, hl, hst, hr, hscript⟩ (n := line.length) (by rw [hidx, hline]; exact Nat.zero_add _)
    exact ⟨o, ho, observe_length ho, hline ▸ hlines none (.inl hidx)⟩

end

section
/-! SUPPORT. The rest of the single operations and what they write (40_uart_rx.md, 41_frame_collector.md, 42_crc16.md, 45_record_pipeline.md), and
byte arrays under indices above 255 (log entry 8). -/

namespace Sys2Proof.Machine

/-! ## The receiver -/

/-- R68, R78: the operations that only go to U_IDLE. -/
theorem exec_uartToIdle {i : Instr} (h : i ∈ [Instr.uStartReject, .uWaitRelease]) (s : State) :
    exec i s = .next (uartEnd { s.uart with state := .idle } .quiet s) := by
  simp only [List.mem_cons, List.not_mem_nil, or_false] at h
  obtain rfl | rfl := h <;> rfl

/-- R65. -/
theorem exec_uStartDetect (s : State) :
    exec .uStartDetect s = .next (uartEnd { s.uart with state := .start, cnt := 1 } .quiet s) := rfl

/-- R67. -/
theorem exec_uStartConfirm (s : State) :
    exec .uStartConfirm s = .next (uartEnd { s.uart with state := .data, cnt := 1, bit := 0 } .quiet s) := rfl

/-- R63. -/
theorem exec_uStopped (s : State) : exec .uStopped s = .next (uartEnd { s.uart with state := .halt } .quiet s) := rfl

/-- R76: one pseudocode for both stop samples. -/
theorem exec_uartDeliver {i : Instr} (h : i ∈ [Instr.uStopSample, .uStopSampleFerr]) (s : State) :
    exec i s = .next ((uartEnd { s.uart with state := afterStop s.sig.rxdS } (deliveredRx s) s).setFlags
      (stickRx (deliveredRx s) s.flags)) := by
  simp only [List.mem_cons, List.not_mem_nil, or_false] at h
  obtain rfl | rfl := h <;> rfl

/-- R76: the parity of a byte with its parity bit, bit by bit. -/
theorem foldl_xor_eq (b : Byte) (p : Bool) : (List.range 8).foldl (fun x j => x ^^ b.getLsbD j) p = (xorBits b ^^ p) := by
  simp only [List.range, List.range.loop, List.foldl, xorBits]
  cases p <;> simp [Bool.xor_comm]

/-- R44: each parity mode's check fails on the bit it excludes. -/
theorem parityError_iff (parity : BitVec 3) (b : Byte) (p : Bool) : parityError parity b p = true ↔
    ((parity = 1 ∧ (xorBits b ^^ p) = true) ∨ (parity = 2 ∧ (xorBits b ^^ p) = false) ∨ (parity = 3 ∧ p = false)
      ∨ (parity = 4 ∧ p = true)) := by
  unfold parityError
  generalize (xorBits b ^^ p) = x
  simp only [parityEven, parityOdd, parityMark, paritySpace, Bool.or_eq_true, Bool.and_eq_true, beq_iff_eq, bne_iff_ne, ne_eq,
    Bool.not_eq_true, Bool.not_eq_false, or_assoc]

/-! ## The collector -/

/-- R84. -/
theorem exec_cSettleDrain (s : State) : exec .cSettleDrain s = .next (colEnd { s.col with state := .idle, timer := 0 } none s) := rfl

/-- R86. -/
theorem exec_cIdleEmptyRead (s : State) : exec .cIdleEmptyRead s = .next (colEnd { s.col with timer := 0 } none s) := rfl

/-- R82. -/
theorem exec_cStopped (s : State) :
    exec .cStopped s = .next (colEnd { s.col with state := .halt, len := 0, timer := 0 } none s) := rfl

/-- R89. -/
theorem exec_cColSilenceClose (s : State) :
    exec .cColSilenceClose s = .next (colEnd (colIdle s.col) (closeRequest (collected s.col) s) s) := rfl

/-- R91. -/
theorem exec_cColFullClose (s : State) : exec .cColFullClose s =
    .next (colEnd (colIdle (frameWrite 255 s.sig.rx.byte s.col)) (closeRequest (memBytes s.col.buf 255 ++ [s.sig.rx.byte]) s) s) := rfl

/-- R28 (log entry 8): a byte of an array's beginning, indexed by its low 8 bits. -/
theorem getElem_memBytes (m : Memory) (n i : Nat) (h : i < (memBytes m n).length) : (memBytes m n)[i] = memRead m (i % 256) := by
  simp [memBytes, byteIndex, Config.chunk]

/-- R91: 255 bytes of the buffer, and the strobed one last. -/
theorem getElem_fullChunk (m : Memory) (b : Byte) (i : Nat) (h : i < (memBytes m 255 ++ [b]).length) :
    (memBytes m 255 ++ [b])[i] = if i = 255 then b else memRead m i := by
  rw [List.length_append, memBytes_length, List.length_singleton] at h
  obtain hlt | rfl : i < 255 ∨ i = 255 := by omega
  · rw [List.getElem_append_left (by rwa [memBytes_length]), getElem_memBytes, Nat.mod_eq_of_lt (by omega), if_neg hlt.ne]
  · simp

/-- R28 (log entry 8): an index that a copy does not pass keeps its byte. -/
theorem memRead_memWriteAll_of_ne {m : Memory} (h : m.wf = true) {i : Nat} {bs : Frame} {j : Nat}
    (hj : ∀ k < bs.length, (i + k) % 256 ≠ j) : memRead (memWriteAll m i bs) j = memRead m j := by
  induction bs generalizing m i with
  | nil => rfl
  | cons b bs ih =>
    have hhead : j ≠ byteIndex i := (hj 0 (Nat.succ_pos _)).symm
    rw [memWriteAll, ih (Memory.wf_memWrite h (byteIndex_lt i) b), memRead_memWrite h, if_neg hhead]
    intro k hk
    rw [Nat.add_right_comm, Nat.add_assoc]
    exact hj (k + 1) (Nat.succ_lt_succ hk)

/-- R28 (log entry 8): a copy longer than the array leaves its last 256 bytes. -/
theorem memRead_memWriteAll_last {m : Memory} (h : m.wf = true) {i : Nat} {bs : Frame} {k : Nat} (hk : k < bs.length)
    (hlast : bs.length ≤ k + 256) : memRead (memWriteAll m i bs) ((i + k) % 256) = bs[k] := by
  induction bs generalizing m i k with
  | nil => cases hk
  | cons b bs ih =>
    rw [List.length_cons] at hk hlast
    have hwf := Memory.wf_memWrite h (byteIndex_lt i) b
    rw [memWriteAll]
    cases k with
    | zero =>
      rw [memRead_memWriteAll_of_ne hwf (fun k' hk' => by omega), memRead_memWrite h]
      exact if_pos rfl
    | succ k =>
      rw [← Nat.add_assoc, Nat.add_right_comm]
      exact ih hwf (Nat.lt_of_succ_lt_succ hk) (by omega)

/-! ## The CRC generator -/

/-- R97, R98, R53: the shift that `t[0]` selects is the bit step of `t`. -/
theorem exec_crcShift_of_t (s : State) : exec (if s.sig.t.getLsbD 0 then .crcShiftXor else .crcShift) s =
    .next (s.setEm { s.em with crc := crcBit s.sig.t }) := by
  rw [crcBit]
  split <;> rfl

/-- R53, R99: the operations of KSEL, from `t` = `e_crc`, are the bit step. -/
theorem runSelector_ksel (s : State) : runSelector (.ksel (ksel s)) (driveT s.em.crc s) = crcBitStep s := by
  have hshift := exec_crcShift_of_t (driveT (crcFeed s) s)
  rw [crcBitStep_eq]
  simp only [runSelector, decode_ksel]
  by_cases hbit : s.em.bit = 0
  · have hin : exec .crcByteIn (driveT s.em.crc s) = .next (driveT (crcFeed s) s) := by
      rw [crcFeed, if_pos hbit]
      rfl
    rw [if_pos hbit]
    simp only [List.singleton_append, execAll, hin, andThen_next]
    exact congrArg (andThen · _) hshift
  · have hfeed : crcFeed s = s.em.crc := if_neg hbit
    rw [if_neg hbit]
    simp only [List.nil_append, execAll]
    rw [hfeed] at hshift ⊢
    exact congrArg (andThen · _) hshift

/-- R99: the bit steps of a byte after its first, and the next byte. -/
theorem execAll_crcSteps {k : Nat} {s : State} (hbit : s.em.bit.toNat + k = 7) (hk : k < 7) : ∃ x,
    execAll (List.replicate k .eCrcStep ++ [.eCrcNextByte]) s = .next ((driveT x s).setEm
      { s.em with crc := crcBits (k + 1) s.em.crc, bit := 0, idx := s.em.idx + 1 }) := by
  have hne : s.em.bit ≠ 0 := fun h => by
    rw [h] at hbit
    exact hk.ne ((Nat.zero_add k).symm.trans hbit)
  have hfeed : crcFeed s = s.em.crc := if_neg hne
  induction k generalizing s with
  | zero =>
    refine ⟨s.em.crc, ?_⟩
    simp only [List.replicate_zero, List.nil_append, execAll, exec_eCrcNextByte, andThen_next, hfeed]
    rfl
  | succ k ih =>
    have hnat : (s.em.bit + 1).toNat = s.em.bit.toNat + 1 := by bv_omega
    simp only [List.replicate_succ, List.cons_append, execAll, exec_eCrcStep, andThen_next, hfeed]
    have hne' : s.em.bit + 1 ≠ 0 := by bv_omega
    exact ih (s := (driveT s.em.crc s).setEm { s.em with crc := crcBit s.em.crc, bit := s.em.bit + 1 })
      (by rw [setEm_em, hnat]; omega) (by omega) hne' (if_neg hne')

/-- R99, R100: the eight bit steps of a byte. -/
theorem execAll_crcByte {s : State} (hbit : s.em.bit = 0) : ∃ x,
    execAll (.eCrcStep :: (List.replicate 6 .eCrcStep ++ [.eCrcNextByte])) s = .next ((driveT x s).setEm
      { s.em with
        crc := crcByte s.em.crc (memRead s.q.headEntry.bytes s.em.idx.toNat)
        bit := 0, idx := s.em.idx + 1 }) := by
  have hfeed : crcFeed s = s.em.crc ^^^ (memRead s.q.headEntry.bytes s.em.idx.toNat).setWidth 16 := by
    rw [crcFeed_eq, if_pos hbit]
  obtain ⟨x, hx⟩ := execAll_crcSteps (k := 6)
    (s := (driveT (crcFeed s) s).setEm { s.em with crc := crcBit (crcFeed s), bit := s.em.bit + 1 })
    (by rw [setEm_em, hbit]; rfl) (by decide)
  refine ⟨x, ?_⟩
  rw [execAll, exec_eCrcStep, andThen_next, crcByte, ← hfeed]
  exact hx

/-! ## The output port -/

/-- R118: what an E_LINE cycle drives, by the character at `e_lidx`. -/
theorem driveLine_eq {s : State} {c : Byte} (hc : s.em.line[s.em.lidx.toNat]? = some c) : driveLine s =
    s.setSig { s.sig with
      out := { s.sig.out with
        lineValid := true
        lineChar := c
        lineLast := decide (s.em.lidx.toNat + 1 = s.em.line.length)
        recValid := decide (s.em.lidx = 0) } } := by
  have hchar : lineChar s.em = c := by
    rw [lineChar, List.getD_eq_getElem?_getD, hc]
    rfl
  simp only [driveLine, hchar, lineLast, Bool.beq_eq_decide_eq]

/-- R128. -/
theorem exec_eLineChar (s : State) : exec .eLineChar s = .next ((driveLine s).setEm { s.em with lidx := s.em.lidx + 1 }) := rfl

/-- R129, R119. -/
theorem exec_eLineLast (s : State) : exec .eLineLast s =
    .next (((driveLine s).setSig { (driveLine s).sig with pop := true }).setEm { s.em with state := .idle }) := rfl

end Sys2Proof.Machine
end

section
/-! Single operations: the remaining statements of 40_uart_rx.md, 41_frame_collector.md, 42_crc16.md, 45_record_pipeline.md and
60_exceptions.md. -/

open Sys2Proof Sys2Proof.Machine

/-- Settles O14: the state and the line's level select the operation, which moves to U_IDLE alone. -/
theorem uartReturnsToIdle : Obligations.UartReturnsToIdle := by
  refine ⟨fun s hstop hst hcnt hrxd => ?_, fun s hstop hst hrxd => ?_, fun s i hi => exec_uartToIdle hi s⟩
  · exact decode_usel_of_uartOp hstop (by simp [uartOp, hst, uHit_start, hcnt, hrxd])
  · exact decode_usel_of_uartOp hstop (by simp [uartOp, hst, hrxd])

/-- Settles O15: the line's level selects the operation at the start and at the middle of the start bit. -/
theorem uartStartBitIsTaken : Obligations.UartStartBitIsTaken := by
  refine ⟨fun s hstop hst hrxd => ?_, fun s hstop hst hcnt hrxd => ?_, fun s => ⟨exec_uStartDetect s, exec_uStartConfirm s⟩⟩
  · exact decode_usel_of_uartOp hstop (by simp [uartOp, hst, hrxd])
  · exact decode_usel_of_uartOp hstop (by simp [uartOp, hst, uHit_start, hcnt, hrxd])

/-- Settles O18: the parity check is that of the configured mode on the byte's parity, and both stop samples deliver. -/
theorem stopSampleDeliversTheByte : Obligations.StopSampleDeliversTheByte := by
  refine ⟨fun s hstop hst hcnt => ?_, fun s i hi => ⟨parityError s.cfg.parity s.uart.shift s.uart.par, ?_, exec_uartDeliver hi s⟩⟩
  · refine decode_usel_of_uartOp hstop ?_
    simp [uartOp, hst, uHit_bit, hcnt]
  · rw [foldl_xor_eq]
    exact parityError_iff _ _ _

/-- Settles O22: the timer's end selects the operation, which begins a new read and closes nothing. -/
theorem settleDrainAndEmptyRead : Obligations.SettleDrainAndEmptyRead := by
  refine ⟨fun s hstop hst ht => ?_, fun s hstop hst hrx ht => ?_, fun s => ⟨exec_cSettleDrain s, exec_cIdleEmptyRead s⟩⟩
  · exact decode_csel_of_collectorOp hstop (by simp [collectorOp, hst, cHit_settle, ht])
  · exact decode_csel_of_collectorOp hstop (by simp [collectorOp, hst, hrx, cHit_tmo, ht])

/-- Settles O24: `stop` is looked at before the state in both selectors. -/
theorem stoppedOperationsHalt : Obligations.StoppedOperationsHalt := by
  refine ⟨fun s hstop => ⟨?_, ?_⟩, fun s => ⟨exec_uStopped s, exec_cStopped s⟩⟩
  · rw [decode_usel, hstop]
    rfl
  · rw [decode_csel, hstop]
    rfl

/-- Settles O27: the closed frame is the beginning of `c_buf`, byte by byte. -/
theorem silenceClosesTheFrame : Obligations.SilenceClosesTheFrame := by
  refine ⟨fun s hstop hst hrx ht => ?_, fun s => ⟨collected s.col, exec_cColSilenceClose s, memBytes_length _ _, getElem_memBytes _ _⟩⟩
  exact decode_csel_of_collectorOp hstop (by simp [collectorOp, hst, hrx, cHit_tmo, ht])

/-- Settles O28: the closed frame is 255 bytes of `c_buf` and the strobed one, which is stored too. -/
theorem fullChunkClosesTheFrame : Obligations.FullChunkClosesTheFrame := by
  refine ⟨fun s hstop hst hrx hlen => ?_, fun s hwf => ⟨_, _, exec_cColFullClose s, ?_, getElem_fullChunk _ _, ?_⟩⟩
  · exact decode_csel_of_collectorOp hstop (by simp [collectorOp, hst, hrx, hlen])
  · rw [List.length_append, memBytes_length]
    rfl
  · exact memRead_frameWrite hwf (Nat.le_refl 255) _

/-- Settles O51: `fatal_req` adds nothing to `stop` and `sts_fatal` where the flag is set already. -/
theorem fatalEntrySetsStop : Obligations.FatalEntrySetsStop := by
  intro s
  have hreq : (s.flags.fatal || s.pins.srcErr && !s.flags.fatal) = (s.flags.fatal || s.pins.srcErr) := fatalEntry_fatal s
  have hstop : (s.pins.srcErr && !s.flags.fatal || s.flags.fatal) = (s.pins.srcErr || s.flags.fatal) :=
    (fatalEntry_stop s).trans (Bool.or_comm _ _)
  change Host.Outcome.next (fatalEntry s) = _
  rw [← hreq, ← hstop]
  rfl

/-- Settles O44: the count and the head frame's length select the operation. -/
theorem emitterDequeues : Obligations.EmitterDequeues := by
  refine ⟨fun s hst => ⟨fun hc => ?_, fun hc hn => ?_, fun hc hn => ?_⟩, fun s => ⟨rfl, exec_eDequeueShort s, exec_eDequeueCrc s⟩⟩
  · rw [decode_esel, hst, emitterOp, hc]
    rfl
  · have hshort : headLen s < Config.minFrame := hn
    rw [decode_esel, hst, emitterOp, if_pos (bne_iff_ne.2 hc), decide_eq_true hshort]
    rfl
  · have hlong : ¬ headLen s < Config.minFrame := Nat.not_lt.2 hn
    rw [decode_esel, hst, emitterOp, if_pos (bne_iff_ne.2 hc), decide_eq_false hlong]
    rfl

/-- Settles O45: the bit and byte counters select the operation, and all three make the same bit step. -/
theorem emitterCrcCyclesStepOneBit : Obligations.EmitterCrcCyclesStepOneBit := by
  refine ⟨fun s hst => ⟨fun hbit => ?_, fun hbit hidx => ?_, fun hbit hidx => ?_⟩, fun s => ?_⟩
  · rw [decode_esel, hst, emitterOp, if_neg (by simpa using hbit)]
  · rw [decode_esel, hst, emitterOp, if_pos (by simpa using hbit), if_neg (by simpa [crcLast, headLen] using hidx)]
  · rw [decode_esel, hst, emitterOp, if_pos (by simpa using hbit), if_pos (by simpa [crcLast, headLen] using hidx)]
  · rw [← crcFeed_eq]
    exact ⟨exec_eCrcStep s, exec_eCrcNextByte s, exec_eCrcDone s⟩

/-- Settles O46: the index selects the operation, and both drive the character at it. -/
theorem emitterOutputsTheLine : Obligations.EmitterOutputsTheLine := by
  refine ⟨fun s hst => ⟨fun hlast => ?_, fun hlast => ?_⟩, fun s c hc => ?_⟩
  · have hno : lineLast s.em = false := beq_false_of_ne hlast
    rw [decode_esel, popRequest, hst, emitterOp, hno]
    exact ⟨rfl, rfl⟩
  · have hyes : lineLast s.em = true := beq_iff_eq.2 hlast
    rw [decode_esel, popRequest, hst, emitterOp, hyes]
    exact ⟨rfl, rfl⟩
  · rw [exec_eLineChar, exec_eLineLast, driveLine_eq hc]
    exact ⟨rfl, rfl⟩

/-- Settles O32: KSEL's operations one after another are the bit step by its equation. -/
theorem bitStepRunsTheSelectedCrcOperations : Obligations.BitStepRunsTheSelectedCrcOperations := runSelector_ksel

/-- Settles O33: the first bit step takes the byte in, and the eight together are CRC_BYTE. -/
theorem eightBitStepsProcessOneByte : Obligations.EightBitStepsProcessOneByte := by
  intro s hbit
  obtain ⟨x, hx⟩ := execAll_crcByte hbit
  exact ⟨_, hx, rfl, rfl, rfl, rfl, rfl, rfl, rfl⟩

/-- Settles O29: a store and a read index by the low 8 bits, and of two stores at one index the later one stays. -/
theorem byteIndexIsEightBits : Obligations.ByteIndexIsEightBits := by
  refine ⟨fun s hwf => ?_, fun s => ?_, fun s p hp hwf0 hwf1 => ?_⟩
  · exact ⟨_, exec_cColAppend s, memRead_memWrite hwf _ _⟩
  · exact ⟨headFrame_length s, getElem_memBytes _ _⟩
  · intro h1 c1 k
    have hpop : popQueue s.sig.pop s.q = { s.q with head := h1, count := c1 } := popQueue_eq _ _
    constructor
    · intro hroom
      have hexec := exec_queueCommit_of_room hp (by rwa [hpop])
      have hk : tailIndex { s.q with head := h1, count := c1 } = k := tailIndex_eq _
      have hwf := wf_entry_bytes k hwf0 hwf1
      have htail := entry_pushQueue_tail p { s.q with head := h1, count := c1 }
      have hother := entry_pushQueue_other p { s.q with head := h1, count := c1 }
      rw [hpop] at hexec
      rw [hk] at htail hother
      refine ⟨_, hexec, pushQueue_head _ _, pushQueue_count _ _, hother, ?_, ?_, fun i hi hlast => ?_, fun i hi => ?_⟩
      · rw [htail]
        rfl
      · rw [htail]
        rfl
      · rw [htail]
        exact (congrArg (fun j => memRead _ (j % 256)) (Nat.zero_add i).symm).trans (memRead_memWriteAll_last hwf hi hlast)
      · rw [htail]
        refine memRead_memWriteAll_of_ne hwf fun j hj => ?_
        omega
    · intro hfull
      rw [exec_queueCommit_of_full hp (by rwa [hpop]), hpop]
      rfl

end
